-- ==== Sys2Proof/Word.lean ====
section
/-! DEFINITION. Word.lean: the bit vectors the manual's fields are made of, and `Table`, a fixed number of like
entries kept as a list of known length. Kernel evaluation of every operation is structural. -/

namespace Sys2Proof

/-- One byte. -/
abbrev Byte := BitVec 8
/-- A 16-bit field: a block number, a break id, a tag. -/
abbrev Half := BitVec 16
/-- A 32-bit field: a count, a check, a generation. -/
abbrev Word := BitVec 32

/-- A fixed number `n` of like entries. -/
structure Table (α : Type) (n : Nat) where
  /-- The entries, in index order. -/
  items : List α
  /-- There are exactly `n` of them. -/
  size_eq : items.length = n
deriving DecidableEq, Repr

variable {α β : Type} {n : Nat}

/-- The entry at an index. -/
def Table.get (t : Table α n) (i : Fin n) : α :=
  t.items[i.val]'(by rw [t.size_eq]; exact i.isLt)

/-- The table with one entry replaced. -/
def Table.set (t : Table α n) (i : Fin n) (a : α) : Table α n :=
  ⟨t.items.set i.val a, by rw [List.length_set, t.size_eq]⟩

/-- The table whose every entry is the same. -/
def Table.fill (n : Nat) (a : α) : Table α n :=
  ⟨List.replicate n a, List.length_replicate⟩

/-- Every entry changed by one function. -/
def Table.map (f : α → β) (t : Table α n) : Table β n :=
  ⟨t.items.map f, by rw [List.length_map, t.size_eq]⟩

/-- One entry changed by a function. -/
def Table.modify (t : Table α n) (i : Fin n) (f : α → α) : Table α n :=
  t.set i (f (t.get i))

/-- The first `n` entries of a list, padded at the end. -/
def Table.ofList (n : Nat) (pad : α) (l : List α) : Table α n :=
  ⟨(l ++ List.replicate n pad).take n, by simp⟩

end Sys2Proof
end

