-- ==== Sys2Proof/Syntax.lean ====
section
/-! DEFINITION. Syntax.lean: the cell image, the operands, and one constructor of `Instr` for each row of
spec/opcode_table.json. -/

namespace Sys2Proof

/-- The 240 bytes after a cell's header. -/
abbrev Payload := Table Byte 240

/-- A 248-byte cell image (01, "The cell"; byte positions in 11, "Cells"). Every image is one of these: a malformed
one has another sync or kind 7 (R1). -/
structure Cell where
  sync : Byte
  kind : BitVec 3
  label : BitVec 11
  unitStart : Bool
  disc : Bool
  seq : BitVec 6
  /-- Bits 1-0 of byte 3, carried as received (log 31). -/
  spare : BitVec 2
  unitTime : BitVec 32
  payload : Payload
deriving DecidableEq, Repr

/-- The two distribution feeds, and with them the two feed ports and the two copies of a slot. -/
inductive Feed where
  | A | B
deriving DecidableEq, Repr

/-- What the link receiver delivers (R34): a cell flagged damaged, none of whose bytes is read, or an image. -/
inductive Arrival where
  | damaged
  | image (c : Cell)
deriving DecidableEq, Repr

/-- Where a management command comes from (R173): a cell addressed to this site, with its tag, or the List Runner,
whose slot gives the tag (log 5). -/
inductive Origin where
  | cell (tag : Half)
  | list
deriving DecidableEq, Repr

/-- The commands of the block: one constructor for each row of spec/opcode_table.json. A `Bool` named `fault` or
`...Fault` is the DDR's answer to the access made inside the step. -/
inductive Instr where
  /-- R34 -/
  | feedCellArrives (feed : Feed) (arrival : Arrival) (writeFault : Bool)
  /-- R18 -/
  | millisecondEvent
  /-- R17 -/
  | secondBoundary
  /-- R29 -/
  | holdoverExpiry
  /-- R47 -/
  | silenceExpiry (feed : Feed)
  /-- R23 -/
  | markWindowOpen
  /-- R23 -/
  | missedMark
  /-- R21; `tick` is the tick count at which the mark arrives -/
  | secondMark (tick : Nat) (value : Option Word) (readFault : Bool)
  /-- R19 -/
  | refClockLoss
  /-- R20 -/
  | refClockResume
  /-- R185 -/
  | resetLine (straps : BitVec 12)
  /-- R72 -/
  | cellTime (readFault : Bool)
  /-- R73 -/
  | blockStart (readFault : Bool)
  /-- R79 -/
  | blockDiscard
  /-- R87 -/
  | fallbackTimerExpiry
  /-- R88 -/
  | fallbackEntry
  /-- R111; `index` names the read among those in flight, oldest first -/
  | fetchReadCompletes (index : Nat) (fault : Bool)
  /-- R101 -/
  | loadCellTaken (writeFault : Bool)
  /-- R136 -/
  | cueTaken
  /-- R143 -/
  | cancelBreak (origin : Origin) (service : Byte) (breakId : Half)
  /-- R172, R173 -/
  | mgmtCellTaken
  /-- R174 -/
  | unknownCommand (origin : Origin) (code : Byte)
  /-- R175 -/
  | write (origin : Origin) (space : Byte) (index : Half) (entry : List Byte)
  /-- R83 -/
  | writeLabelTable (origin : Origin) (index : Half) (entry : List Byte)
  /-- R134 -/
  | writeServiceTable (origin : Origin) (index : Half) (entry : List Byte)
  /-- R135 -/
  | writeBreakMap (origin : Origin) (index : Half) (entry : List Byte)
  /-- R176 -/
  | writeSiteSettings (origin : Origin) (index : Half) (entry : List Byte)
  /-- R157 -/
  | writeCounters (origin : Origin) (index : Half) (entry : List Byte)
  /-- R165 -/
  | writeListDescriptors (origin : Origin) (index : Half) (entry : List Byte)
  /-- R165 -/
  | writeListStore (origin : Origin) (index : Half) (entry : List Byte)
  /-- R177 -/
  | read (origin : Origin) (space : Byte) (count : Byte) (first : Half)
  /-- R178 -/
  | describe (origin : Origin) (space : Byte)
  /-- R98 -/
  | clipDefine (origin : Origin) (clip : Byte) (basePage pages : Half) (cells clipOrigin duration check : Word)
  /-- R100 -/
  | clipRelease (origin : Origin) (clip : Byte)
  /-- R115 -/
  | clipFault (origin : Origin)
  /-- R160 -/
  | counterStart (origin : Origin) (counter : Byte)
  /-- R160 -/
  | counterStop (origin : Origin) (counter : Byte)
  /-- R160 -/
  | counterLoad (origin : Origin) (counter : Byte)
  /-- R159 -/
  | counterUnderflow (counter : Fin 4)
  /-- R162; `list` is a list number, or 0xFF for none -/
  | alarmArm (origin : Origin) (alarm list : Byte) (target : Word)
  /-- R164 -/
  | alarmDisarm (origin : Origin) (alarm : Byte)
  /-- R163 -/
  | alarmFires (alarm : Fin 4)
  /-- R166 -/
  | runList (origin : Origin) (list : Byte)
  /-- R167 -/
  | triggerTaken
  /-- R179 -/
  | muteOn (origin : Origin)
  /-- R179 -/
  | muteOff (origin : Origin)
  /-- R181 -/
  | eventMaskSet (origin : Origin) (events : Word)
  /-- R181 -/
  | eventMaskClear (origin : Origin) (events : Word)
  /-- R181 -/
  | eventRead (origin : Origin)
  /-- R184 -/
  | resetSiteTraffic (origin : Origin)
  /-- R185 -/
  | resetSiteFull (origin : Origin)
  /-- R183 -/
  | reportSent
deriving DecidableEq, Repr

end Sys2Proof
end

