-- ==== Sys2Proof/Decode.lean ====
section
/-! DEFINITION. Decode.lean: the command a word spells by the table's bits. The part takes events, not words: no row
of spec/opcode_table.json gives bits, so no word spells a command. (Management commands do travel as bytes, in cells
and in List Store slots; those are read by `decodeCommand` in Machine/Operands.lean.) -/

namespace Sys2Proof

/-- The command that the bits `w` spell: none, since the table gives no row any bits. -/
def decodeTableWord (nbits w : Nat) : Option Instr :=
  match nbits, w with
  | _, _ => none

end Sys2Proof
end

