-- ==== Sys2Proof/Config.lean ====
section
/-! DEFINITION. Config.lean: the fixed figures of the part and the one value the spec leaves free. -/

namespace Sys2Proof.Config

/-- Ticks in a second (R6). -/
def ticksPerSecond : Nat := 10000000
/-- Ticks in a millisecond (R18). -/
def ticksPerMs : Nat := 10000
/-- Millisecond events in a second (R18). -/
def msPerSecond : Nat := 1000
/-- The modulus M of stamp arithmetic, 256 seconds (R6). -/
def stampModulus : Nat := 2560000000
/-- Above this a raw difference is folded (R7). -/
def stampFold : Nat := 1280000000
/-- Cell images in one copy area (00, "up to 512 cells each"). -/
def copyCells : Nat := 512
/-- Bytes in a cell image. -/
def cellBytes : Nat := 248
/-- Cell images in one clip page. -/
def pageCells : Nat := 256
/-- Pages of the clip store (R96). -/
def clipPages : Nat := 4096
/-- Bytes of the clip store (R96). -/
def clipStoreBytes : Nat := 260046848
/-- Clip bytes in one LOAD cell (R102). -/
def segmentBytes : Nat := 232
/-- Capacity of each of the three intakes (R101, R136, R173). -/
def intakeRoom : Nat := 1024
/-- Capacity of the Report Queue (R183). -/
def reportRoom : Nat := 16
/-- Capacity of the Pending Trigger Queue (R166). -/
def triggerRoom : Nat := 8
/-- Records the As-Run Log holds (R153). -/
def asRunRoom : Nat := 64
/-- Most cells one fetch asks for (R122). -/
def fetchCells : Nat := 32

/-- FREE VALUE (log 8). Whether byte `i` of the `n`-th faulting DDR write reached the memory. R107 says only that
"some bytes of the segment may have reached the pages". -/
opaque faultReach : Nat → Nat → Bool

end Sys2Proof.Config
end

