-- ==== Sys2Proof/Machine/State.lean ====
section
/-! DEFINITION. Machine/State.lean: every piece of state the spec gives the part, block by block, as plain data, with
the value of each after a FULL reset. Counts the manual calls "32 bits, wrapping" are `Word`; sizes and indexes are
`Nat` or `Fin`. -/

namespace Sys2Proof.Machine

/-- A stamp: seconds in the top 8 bits, ticks in the low 24 (R6, R187). -/
abbrev Stamp := BitVec 32

/-- Bytes of memory by address, in one canonical form: addresses rising, and no byte equal to the 0 that an unlisted
address reads as (log 7). -/
abbrev Memory := List Host.Cell

/-- No event of the part stops it: every DDR fault, damaged cell and refused command has effects the spec gives
(log 29). So there is no constructor, and no meaning raises a fault. -/
inductive Fault
deriving DecidableEq, Repr

/-- Why a command has no outcome. -/
inductive Refusal where
  /-- Raised by exec's arm of a command that has no meaning yet; safe, since nothing is then claimed of it. -/
  | notModelled (mnemonic : String)
deriving DecidableEq, Repr

/-! ### Site Time Unit (02) -/

/-- R26 to R30. -/
inductive TimeState where
  | unset | acquiring | locked | holdover | freeRun
deriving DecidableEq, Repr

/-- R17. -/
inductive TickSource where
  | reference | localOsc
deriving DecidableEq, Repr

/-- 02, "What the unit holds". -/
structure SiteTime where
  seconds : Word
  ticks : Fin 10000000
  state : TimeState
  source : TickSource
  goodRun : Nat
  outlierRun : Nat
  missedRun : Nat
  holdover : Nat
  markSeen : Bool
  /-- The capture window W. -/
  window : Nat
  holdoverLimit : Nat
deriving DecidableEq, Repr

/-- R16. -/
def SiteTime.reset : SiteTime where
  seconds := 0
  ticks := 0
  state := .unset
  source := .reference
  goodRun := 0
  outlierRun := 0
  missedRun := 0
  holdover := 0
  markSeen := false
  window := 50
  holdoverLimit := 300

/-! ### Feed ports (03) -/

/-- R42, R47. -/
inductive FeedState where
  | absent | tracking | lost
deriving DecidableEq, Repr

/-- The sixteen counts of a port (03, "Counts"), in the order of the table. -/
structure FeedCounts where
  damaged : Word
  malformed : Word
  stray : Word
  foreign : Word
  badTiming : Word
  notTimed : Word
  late : Word
  early : Word
  duplicate : Word
  divergence : Word
  collision : Word
  good : Word
  checkFailures : Word
  short : Word
  writeFaults : Word
  withdrawn : Word
deriving DecidableEq, Repr

/-- The copy a port is filling: its slot, and the block number its report will carry (R53, log 18). -/
structure CopyRef where
  slot : Fin 256
  block : Half
deriving DecidableEq, Repr

/-- 03, "What a port holds". -/
structure FeedPort where
  state : FeedState
  silenceLatch : Nat
  silence : Nat
  current : Option CopyRef
  expected : Nat
  received : Nat
  blockCheck : Word
  runningCheck : Word
  counts : FeedCounts
  /-- The model's own note for R48 (log 32): a TIMING cell was taken where the next millisecond event was to be the
  silence expiry, so that event leaves the value as loaded. -/
  forestalled : Bool
deriving DecidableEq, Repr

/-- R50. -/
def FeedPort.reset : FeedPort where
  state := .absent
  silenceLatch := 200
  silence := 200
  current := none
  expected := 1
  received := 0
  blockCheck := 0
  runningCheck := 0xFFFFFFFF
  counts := ⟨0, 0, 0, 0, 0, 0, 0, 0, 0, 0, 0, 0, 0, 0, 0, 0⟩
  forestalled := false

/-- The settings both ports read, and the preferred feed, which the Emitter reads (R49). -/
structure FeedSettings where
  networkId : Half
  silenceLimit : Nat
  preferred : Feed
deriving DecidableEq, Repr

/-- R50. -/
def FeedSettings.reset : FeedSettings := ⟨0, 200, .A⟩

/-! ### Slot Table (04) -/

/-- R52. -/
inductive SlotState where
  | free | opened | ready | emitting
deriving DecidableEq, Repr

/-- R53. -/
inductive CopyState where
  | empty | filling | good | bad
deriving DecidableEq, Repr

/-- 04, the copy record. -/
structure Copy where
  state : CopyState
  received : Nat
deriving DecidableEq, Repr

/-- 04, "What a slot holds". -/
structure Slot where
  state : SlotState
  block : Half
  stamp : Stamp
  count : Nat
  copyA : Copy
  copyB : Copy
  dispatched : Bool
deriving DecidableEq, Repr

/-- A FREE slot holds these values (R52). -/
def Slot.free : Slot where
  state := .free
  block := 0
  stamp := 0
  count := 1
  copyA := ⟨.empty, 0⟩
  copyB := ⟨.empty, 0⟩
  dispatched := false

/-- The eight counts of R66. -/
structure SlotCounts where
  opened : Word
  ready : Word
  lost : Word
  lateCompletions : Word
  stampClashes : Word
  cues : Word
  mgmts : Word
  loads : Word
deriving DecidableEq, Repr

/-- The Slot Table with its queue, counts and settings (R62, R65, R66). -/
structure SlotTable where
  slots : Table Slot 256
  /-- The Emission Queue, head first. -/
  queue : List (Fin 256)
  counts : SlotCounts
  minLead : Nat
  maxAhead : Nat
deriving DecidableEq, Repr

/-- R67. -/
def SlotTable.reset : SlotTable where
  slots := Table.fill 256 Slot.free
  queue := []
  counts := ⟨0, 0, 0, 0, 0, 0, 0, 0⟩
  minLead := 20000
  maxAhead := 120000000

/-! ### Emitter (05) -/

/-- R69. -/
inductive EmitterState where
  | muted | idle | block | fallback
deriving DecidableEq, Repr

/-- The mute reason set (R70). -/
structure MuteReasons where
  time : Bool
  operator : Bool
deriving DecidableEq, Repr

/-- The phase reference of R14. -/
structure Phase where
  stamp : Stamp
  cell : Nat
deriving DecidableEq, Repr

/-- The block on air (R73, R95). -/
structure CurrentBlock where
  slot : Fin 256
  block : Half
  count : Nat
  copy : Feed
  sent : Nat
deriving DecidableEq, Repr

/-- R83. -/
inductive Role where
  | pass | drop | service
deriving DecidableEq, Repr

/-- One record of the Label Table (05). The service byte is stored as written (R83). -/
structure LabelRecord where
  role : Role
  service : Byte
  lastSeq : Option (BitVec 6)
  pending : Bool
  emitted : Word
deriving DecidableEq, Repr

/-- R93. -/
def LabelRecord.reset : LabelRecord := ⟨.pass, 0, none, false, 0⟩

/-- For each clip label 0-3, an output label or none. -/
abbrev LabelMap := Table (Option (BitVec 11)) 4

/-- The nine counts of R95. -/
structure EmitterCounts where
  started : Word
  overruns : Word
  muteDrops : Word
  skipped : Word
  unsent : Word
  readFaults : Word
  fallbackEntries : Word
  fallbackFaults : Word
  feedSwitches : Word
deriving DecidableEq, Repr

/-- 05, "What the Emitter holds", with its settings. -/
structure Emitter where
  state : EmitterState
  reasons : MuteReasons
  phase : Phase
  period : Nat
  pendingPeriod : Option Nat
  current : Option CurrentBlock
  activeFeed : Option Feed
  timer : Nat
  labels : Table LabelRecord 2048
  counts : EmitterCounts
  fallbackEnable : Bool
  fallbackDelay : Nat
  fallbackClip : Option (Fin 128)
  fallbackMap : LabelMap
deriving DecidableEq, Repr

/-- R93. -/
def Emitter.reset : Emitter where
  state := .muted
  reasons := ⟨true, false⟩
  phase := ⟨0, 0⟩
  period := 65011712
  pendingPeriod := none
  current := none
  activeFeed := none
  timer := 0
  labels := Table.fill 2048 LabelRecord.reset
  counts := ⟨0, 0, 0, 0, 0, 0, 0, 0, 0⟩
  fallbackEnable := false
  fallbackDelay := 2000
  fallbackClip := none
  fallbackMap := Table.fill 4 none

/-! ### Clip Store (06) -/

/-- R97. -/
inductive ClipState where
  | empty | loading | ready
deriving DecidableEq, Repr

/-- One entry of the Clip Directory (06). -/
structure ClipEntry where
  state : ClipState
  basePage : Nat
  pages : Nat
  cells : Nat
  origin : Stamp
  duration : Nat
  declaredCheck : Word
  nextSegment : Nat
  runningCheck : Word
  useCount : Nat
  played : Bool
  written : Bool
  repeats : Word
  gaps : Word
  failures : Word
deriving DecidableEq, Repr

/-- An EMPTY entry with its three counts at 0 (R97, R100, R116). -/
def ClipEntry.empty : ClipEntry where
  state := .empty
  basePage := 0
  pages := 1
  cells := 1
  origin := 0
  duration := 0
  declaredCheck := 0
  nextSegment := 0
  runningCheck := 0xFFFFFFFF
  useCount := 0
  played := false
  written := false
  repeats := 0
  gaps := 0
  failures := 0

/-- The kind of a clip memory fault. -/
inductive FaultReason where
  | readError | writeError
deriving DecidableEq, Repr

/-- The operation that met a clip memory fault. -/
inductive FaultAccess where
  | fetch | load
deriving DecidableEq, Repr

/-- The Clip Fault Record (06). -/
structure FaultRecord where
  frozen : Bool
  reason : Option FaultReason
  access : Option FaultAccess
  clip : Option (Fin 128)
  index : Option Nat
  channel : Option (Fin 9)
  block : Option Half
  whileFrozen : Word
deriving DecidableEq, Repr

/-- R113. -/
def FaultRecord.clear : FaultRecord := ⟨false, none, none, none, none, none, none, 0⟩

/-- A fetch read in flight (R111): what it reads, for which channel, under which generation, and whether a FULL reset
has made it stale whatever generation it carries (R132). -/
structure FetchRead where
  channel : Fin 9
  clip : Fin 128
  first : Nat
  count : Nat
  basePage : Nat
  generation : Word
  stale : Bool
deriving DecidableEq, Repr

/-- The store's counts beside faults while frozen (R118), in the order of the table. -/
structure StoreCounts where
  loadCells : Word
  unknownClips : Word
  segmentsWritten : Word
  writeFaults : Word
  readFaults : Word
deriving DecidableEq, Repr

/-- The Clip Store. -/
structure ClipStore where
  entries : Table ClipEntry 128
  /-- The clip pages, by store byte address (R96). -/
  pages : Memory
  /-- The load intake, oldest first (R101). -/
  intake : List Payload
  /-- Reads in flight, oldest first. -/
  reads : List FetchRead
  record : FaultRecord
  counts : StoreCounts
deriving DecidableEq, Repr

/-- R116; the intake, the pages and the reads at power-on are of logs 7 and 16. -/
def ClipStore.reset : ClipStore where
  entries := Table.fill 128 ClipEntry.empty
  pages := []
  intake := []
  reads := []
  record := FaultRecord.clear
  counts := ⟨0, 0, 0, 0, 0⟩

/-! ### Playout Unit (07) -/

/-- 07, "What a channel holds". -/
inductive ChannelState where
  | parked | priming | serving
deriving DecidableEq, Repr

/-- One queue entry: a finished cell with its tag and marks. -/
structure QueueEntry where
  cell : Cell
  tag : Nat
  clipEnd : Bool
  passMark : Bool
deriving DecidableEq, Repr

/-- One channel (07). The fill is the length of the queue. A clip list of none is the empty list. -/
structure Channel where
  state : ChannelState
  depth : Nat
  refill : Nat
  queue : List QueueEntry
  clips : List (Fin 128)
  labelMap : Option LabelMap
  base : Stamp
  listIndex : Nat
  cellIndex : Nat
  passMarkDue : Bool
  inFlight : Bool
  inFlightCount : Nat
  generation : Word
  exhausted : Bool
  halted : Bool
  underruns : Word
  malformed : Word
  invalidTimes : Word
deriving DecidableEq, Repr

/-- R132, for a channel of the given depth. -/
def Channel.reset (depth : Nat) : Channel where
  state := .parked
  depth := depth
  refill := depth / 2
  queue := []
  clips := []
  labelMap := none
  base := 0
  listIndex := 0
  cellIndex := 0
  passMarkDue := false
  inFlight := false
  inFlightCount := 0
  generation := 0
  exhausted := false
  halted := false
  underruns := 0
  malformed := 0
  invalidTimes := 0

/-- R132: 448 for channels 0-7, 512 for channel 8. -/
def channelsReset : Table Channel 9 :=
  (Table.fill 9 (Channel.reset 448)).set 8 (Channel.reset 512)

/-! ### Splice Unit (08) -/

/-- Why a cue was refused (R138 to R140). -/
inductive CueRefusal where
  | badTime | badRange | late | state | clipAbsent | overlap | full
deriving DecidableEq, Repr

/-- One Service Table entry; its depth and refill mark are the channel's (R134). -/
structure Service where
  enable : Bool
  armLead : Nat
  accepted : Word
  ignored : Word
  refused : Word
  lastRefusal : Option (CueRefusal × Half)
deriving DecidableEq, Repr

/-- R155. -/
def Service.reset : Service := ⟨false, 8, 0, 0, 0, none⟩

/-- One Break Map entry (R135). -/
structure BreakEntry where
  valid : Bool
  service : Fin 8
  breakId : Half
  clips : List (Fin 128)
  labelMap : LabelMap
deriving DecidableEq, Repr

/-- R135. -/
def BreakEntry.reset : BreakEntry := ⟨false, 0, 0, [0], Table.fill 4 none⟩

/-- 08, "Schedule entries". -/
inductive EntryState where
  | pending | arming | armed | active
deriving DecidableEq, Repr

/-- One entry of the Splice Schedule (08). -/
structure ScheduleEntry where
  breakId : Half
  inBlock : Half
  outBlock : Half
  pt : Stamp
  clips : List (Fin 128)
  labelMap : LabelMap
  state : EntryState
  primeGeneration : Option Word
  faulted : Bool
  cancelRequested : Bool
  cellsFromClips : Word
  cellsNull : Word
  clipsCompleted : Nat
  firstCell : Option Stamp
deriving DecidableEq, Repr

/-- R149. -/
inductive BreakOutcome where
  | complete | truncated | aborted | cancelled | missed | reset
deriving DecidableEq, Repr

/-- R149. -/
inductive BreakReason where
  | none | clipNotReady | clipFault | blocksMissing
deriving DecidableEq, Repr

/-- One record of the As-Run Log (R153). -/
structure AsRunRecord where
  number : Half
  service : Fin 8
  breakId : Half
  inBlock : Half
  outBlock : Half
  outcome : BreakOutcome
  reason : BreakReason
  clipsCompleted : Nat
  cellsFromClips : Word
  cellsNull : Word
  firstCell : Option Stamp
  lastNoticed : Option Half
deriving DecidableEq, Repr

/-- The Splice Unit. -/
structure Splice where
  services : Table Service 8
  breakMap : Table BreakEntry 64
  /-- Each service's schedule, head first. -/
  schedules : Table (List ScheduleEntry) 8
  lastNoticed : Option Half
  /-- Newest record first (R154). -/
  asRun : List AsRunRecord
  lastAsRun : Half
  badCues : Word
  /-- The cue intake, oldest first (R136). -/
  intake : List Payload
deriving DecidableEq, Repr

/-- R155; the intake at power-on is of log 16. -/
def Splice.reset : Splice where
  services := Table.fill 8 Service.reset
  breakMap := Table.fill 64 BreakEntry.reset
  schedules := Table.fill 8 []
  lastNoticed := none
  asRun := []
  lastAsRun := 0
  badCues := 0
  intake := []

/-! ### Counter Bank (09) -/

/-- R158. -/
inductive CounterSource where
  | millisecond | second | block | cascade
deriving DecidableEq, Repr

/-- R159. -/
inductive CounterMode where
  | oneShot | continuous
deriving DecidableEq, Repr

/-- One counter (09); the action is a list number, or none for event only. -/
structure Counter where
  latch : Nat
  value : Nat
  source : CounterSource
  mode : CounterMode
  running : Bool
  action : Option (Fin 16)
  underflows : Word
deriving DecidableEq, Repr

/-- R161. -/
def Counter.reset : Counter := ⟨65535, 65535, .millisecond, .continuous, false, none, 0⟩

/-- One Time Alarm (09). -/
structure Alarm where
  armed : Bool
  target : Stamp
  targetSeconds : Word
  targetTicks : Nat
  list : Option (Fin 16)
  fires : Word
deriving DecidableEq, Repr

/-- R164. -/
def Alarm.reset : Alarm := ⟨false, 0, 0, 0, none, 0⟩

/-! ### List Runner (09) -/

/-- R165. -/
structure ListDescriptor where
  defined : Bool
  first : Nat
  length : Nat
deriving DecidableEq, Repr

/-- R165. -/
def ListDescriptor.reset : ListDescriptor := ⟨false, 0, 1⟩

/-- One List Store slot (R188). -/
structure StoredCommand where
  tag : Half
  code : Byte
  params : Table Byte 64
deriving DecidableEq, Repr

/-- R165. -/
def StoredCommand.cleared : StoredCommand := ⟨0, 0, Table.fill 64 0⟩

/-- R167, R168: a running list, with the descriptor's figures as read at the start, the index of the next command, and
that command as the runner read it from its slot when it offered it. -/
inductive RunnerState where
  | idle
  | running (list : Fin 16) (first length index : Nat) (offered : StoredCommand)
deriving DecidableEq, Repr

/-- The status of a command (11, "Codes"). -/
inductive Status where
  | ok | unknownCommand | badSpace | badIndex | badField | readOnly | busy | overlap | full | state | timePast | timeUnset
deriving DecidableEq, Repr

/-- The list fault record (R168). -/
structure ListFault where
  list : Fin 16
  index : Nat
  status : Status
deriving DecidableEq, Repr

/-- The four counts of R170. -/
structure RunnerCounts where
  started : Word
  completed : Word
  faults : Word
  triggersLost : Word
deriving DecidableEq, Repr

/-- The List Runner with its tables. -/
structure ListRunner where
  descriptors : Table ListDescriptor 16
  store : Table StoredCommand 256
  /-- The Pending Trigger Queue, oldest first. -/
  triggers : List (Fin 16)
  state : RunnerState
  fault : Option ListFault
  lastLost : Option (Fin 16)
  counts : RunnerCounts
deriving DecidableEq, Repr

/-- R165, R169. -/
def ListRunner.reset : ListRunner where
  descriptors := Table.fill 16 ListDescriptor.reset
  store := Table.fill 256 StoredCommand.cleared
  triggers := []
  state := .idle
  fault := none
  lastLost := none
  counts := ⟨0, 0, 0, 0⟩

/-! ### Management Engine (10) -/

/-- The two sources the engine serves (R173), and the source field of a reply (R174). -/
inductive CommandSource where
  | intake | runner
deriving DecidableEq, Repr

/-- R189. -/
inductive ReportKind where
  | reply | event
deriving DecidableEq, Repr

/-- A report, as the fields of R174 and R189. -/
structure Report where
  siteId : BitVec 12
  kind : ReportKind
  dropped : Bool
  source : CommandSource
  tag : Half
  code : Byte
  status : Status
  part : Nat
  parts : Nat
  data : List Byte
deriving DecidableEq, Repr

/-- The seven counts of R186. -/
structure EngineCounts where
  cellCommands : Word
  listCommands : Word
  notAddressed : Word
  overflows : Word
  queued : Word
  dropped : Word
  events : Word
deriving DecidableEq, Repr

/-- The Management Engine. An event set has bit `n` for the event at position `n` (R187). -/
structure Engine where
  siteId : BitVec 12
  groups : Half
  /-- The Command Intake, oldest first (R173). -/
  intake : List Payload
  lastSource : CommandSource
  latched : BitVec 24
  mask : BitVec 24
  fresh : BitVec 24
  /-- The Report Queue, oldest first (R183). -/
  reports : List Report
  droppedFlag : Bool
  counts : EngineCounts
deriving DecidableEq, Repr

/-- R185, for the strap value read at the reset (R171). -/
def Engine.reset (straps : BitVec 12) : Engine where
  siteId := straps
  groups := 0
  intake := []
  lastSource := .runner
  latched := 0
  mask := 0
  fresh := 0
  reports := []
  droppedFlag := false
  counts := ⟨0, 0, 0, 0, 0, 0, 0⟩

/-! ### The whole part -/

/-- What the outside holds at the pins (log 6). -/
structure Pins where
  straps : BitVec 12
  refEdges : Bool
deriving DecidableEq, Repr

/-- What has left the part: the last cell on the emission port and the last report cell on the return link, with the
number of each so far (the model's own, log 10). -/
structure Outputs where
  cell : Option Cell
  cells : Nat
  report : Option Cell
  reports : Nat
deriving DecidableEq, Repr

/-- The state of the part. -/
structure State where
  /-- Commands waiting, first in first out. -/
  pending : List Instr
  pins : Pins
  time : SiteTime
  portA : FeedPort
  portB : FeedPort
  feeds : FeedSettings
  slots : SlotTable
  /-- The delay memory, by byte address. -/
  delay : Memory
  emitter : Emitter
  clips : ClipStore
  channels : Table Channel 9
  splice : Splice
  counters : Table Counter 4
  alarms : Table Alarm 4
  runner : ListRunner
  engine : Engine
  out : Outputs
  /-- How many faulting DDR writes have drawn on `Config.faultReach` (the model's own, log 8). -/
  faultCount : Nat
  /-- R23: the last mark that moved the clock stood where its window opens, and no second has been counted out since
  (the model's own, log 3). -/
  openingTaken : Bool
  /-- R18: the tick count was brought to the multiple of 10,000 where it stands, and the millisecond event of that tick, with
  the second-boundary event at tick 0, is still to come (the model's own, logs 3 and 32). -/
  eventDue : Bool
deriving DecidableEq, Repr

/-- The part right after a FULL reset from the reset line at power-on. -/
def State.reset : State where
  pending := []
  pins := ⟨0, true⟩
  time := SiteTime.reset
  portA := FeedPort.reset
  portB := FeedPort.reset
  feeds := FeedSettings.reset
  slots := SlotTable.reset
  delay := []
  emitter := Emitter.reset
  clips := ClipStore.reset
  channels := channelsReset
  splice := Splice.reset
  counters := Table.fill 4 Counter.reset
  alarms := Table.fill 4 Alarm.reset
  runner := ListRunner.reset
  engine := Engine.reset 0
  out := ⟨none, 0, none, 0⟩
  faultCount := 0
  openingTaken := false
  eventDue := false

end Sys2Proof.Machine
end

