-- ==== Sys2Proof/Machine/Ops.lean ====
section
/-! DEFINITION. Machine/Ops.lean: stamps, block numbers and cell times (01), the check (R5), cell images and their
bytes, big-endian fields (R187), and the memories. -/

namespace Sys2Proof.Machine

/-! ### Stamps -/

/-- The seconds field S of a stamp (R6). -/
def stampSeconds (s : Stamp) : Nat := (s.extractLsb' 24 8).toNat

/-- The tick field T of a stamp (R6). -/
def stampTicks (s : Stamp) : Nat := (s.extractLsb' 0 24).toNat

/-- R6: a stamp is valid when T lies in 0-9,999,999. -/
def stampValid (s : Stamp) : Bool := decide (stampTicks s < Config.ticksPerSecond)

/-- R6: L = S × 10,000,000 + T. -/
def linear (s : Stamp) : Nat := stampSeconds s * Config.ticksPerSecond + stampTicks s

/-- R6: the stamp of a linear value, S its quotient and T its remainder. -/
def ofLinear (l : Nat) : Stamp :=
  BitVec.ofNat 8 (l / Config.ticksPerSecond) ++ BitVec.ofNat 24 (l % Config.ticksPerSecond)

/-- R7: the raw difference taken into 0 to M − 1. -/
def rawDiff (a b : Stamp) : Int := ((linear a : Int) - (linear b : Int)) % (Config.stampModulus : Int)

/-- R7: diff(a, b), the raw difference folded. -/
def diff (a b : Stamp) : Int :=
  if rawDiff a b > (Config.stampFold : Int) then rawDiff a b - (Config.stampModulus : Int) else rawDiff a b

/-- R8: add(s, d). -/
def addTicks (s : Stamp) (d : Int) : Stamp :=
  ofLinear (((linear s : Int) + d) % (Config.stampModulus : Int)).toNat

/-- R10: Site Time as a stamp. -/
def SiteTime.now (t : SiteTime) : Stamp := t.seconds.extractLsb' 0 8 ++ BitVec.ofNat 24 t.ticks.val

/-- "now" (R10). -/
def State.now (s : State) : Stamp := s.time.now

/-- A stamp has been reached: diff(now, s) ≥ 0 (R7). -/
def State.reached (s : State) (stamp : Stamp) : Bool := decide (0 ≤ diff s.now stamp)

/-! ### Block numbers -/

/-- R11: b precedes c. -/
def precedes (b c : Half) : Bool := decide (1 ≤ (c - b).toNat ∧ (c - b).toNat ≤ 32767)

/-- R11: b precedes or equals c, that is, c is at or after b. -/
def precedesEq (b c : Half) : Bool := decide (b = c) || precedes b c

/-- R12: the length of the window [i, o). -/
def windowLength (i o : Half) : Nat := (o - i).toNat

/-- R12: the window [i, o) holds b. -/
def windowHolds (i o b : Half) : Bool := precedesEq i b && precedes b o

/-- R12: two windows share a block number. Two windows of accepted length share one exactly when one holds the first
block of the other (log 19). -/
def windowsOverlap (i o i' o' : Half) : Bool := windowHolds i o i' || windowHolds i' o' i

/-! ### Cell times -/

/-- R14: the ticks from the reference stamp to the due time of cell number k. -/
def dueOffset (period k : Nat) : Nat := k * period / 65536

/-- R14: the due time of cell number k. -/
def dueTime (p : Phase) (period k : Nat) : Stamp :=
  ofLinear ((linear p.stamp + dueOffset period k) % Config.stampModulus)

/-- The largest cell number whose due offset is at most `ticks` (R14, R80). -/
def lastDue (period ticks : Nat) : Nat := ((ticks + 1) * 65536 - 1) / period

/-! ### Fields of byte strings (R187) -/

/-- The byte at an offset. -/
def byteAt (l : List Byte) (i : Nat) : Byte := l.getD i 0

/-- The 16-bit field at an offset, most significant byte first. -/
def halfAt (l : List Byte) (i : Nat) : Half := byteAt l i ++ byteAt l (i + 1)

/-- The 32-bit field at an offset, most significant byte first. -/
def wordAt (l : List Byte) (i : Nat) : Word :=
  byteAt l i ++ byteAt l (i + 1) ++ byteAt l (i + 2) ++ byteAt l (i + 3)

/-- The two bytes of a 16-bit field. -/
def be16 (x : Half) : List Byte := [x.extractLsb' 8 8, x.extractLsb' 0 8]

/-- The four bytes of a 32-bit field. -/
def be32 (x : Word) : List Byte :=
  [x.extractLsb' 24 8, x.extractLsb' 16 8, x.extractLsb' 8 8, x.extractLsb' 0 8]

/-- A number in one byte. -/
def nat8 (n : Nat) : List Byte := [BitVec.ofNat 8 n]

/-- A number in two bytes. -/
def nat16 (n : Nat) : List Byte := be16 (BitVec.ofNat 16 n)

/-- A number in four bytes. -/
def nat32 (n : Nat) : List Byte := be32 (BitVec.ofNat 32 n)

/-- A yes/no field. -/
def yesNo (b : Bool) : Byte := if b then 1 else 0

/-- One bit of a flags byte. -/
def flagBit (n : Nat) (b : Bool) : Byte := if b then BitVec.ofNat 8 (2 ^ n) else 0

/-! ### Cells -/

/-- The kind codes of 11, "Codes". -/
def kindData : BitVec 3 := 1
/-- TIMING. -/
def kindTiming : BitVec 3 := 2
/-- CUE. -/
def kindCue : BitVec 3 := 3
/-- MGMT. -/
def kindMgmt : BitVec 3 := 4
/-- LOAD. -/
def kindLoad : BitVec 3 := 5
/-- REPORT. -/
def kindReport : BitVec 3 := 6

/-- R1: sync other than 0xB8, or kind 7. -/
def cellMalformed (c : Cell) : Bool := decide (c.sync ≠ 0xB8 ∨ c.kind = 7)

/-- A well-formed DATA cell. -/
def cellIsData (c : Cell) : Bool := !(cellMalformed c) && decide (c.kind = kindData)

/-- R4: the null cell. -/
def nullCell : Cell where
  sync := 0xB8
  kind := 0
  label := 2047
  unitStart := false
  disc := false
  seq := 0
  spare := 0
  unitTime := 0
  payload := Table.fill 240 0xFF

/-- The 248 bytes of an image (11, "Cells"). -/
def cellToBytes (c : Cell) : List Byte :=
  [c.sync,
   c.kind ++ c.label.extractLsb' 6 5,
   c.label.extractLsb' 0 6 ++ BitVec.ofBool c.unitStart ++ BitVec.ofBool c.disc,
   c.seq ++ c.spare] ++ be32 c.unitTime ++ c.payload.items

/-- The image that 248 bytes are. -/
def cellOfBytes (l : List Byte) : Cell where
  sync := byteAt l 0
  kind := (byteAt l 1).extractLsb' 5 3
  label := (byteAt l 1).extractLsb' 0 5 ++ (byteAt l 2).extractLsb' 2 6
  unitStart := (byteAt l 2).getLsbD 1
  disc := (byteAt l 2).getLsbD 0
  seq := (byteAt l 3).extractLsb' 2 6
  spare := (byteAt l 3).extractLsb' 0 2
  unitTime := wordAt l 4
  payload := Table.ofList 240 0 (l.drop 8)

/-! ### The check (R5) -/

/-- One bit of the check register's shift. -/
def crcBit (c : Word) : Word := if c.msb then (c <<< 1) ^^^ 0x04C11DB7 else c <<< 1

/-- The check continued over one byte, most significant bit first. -/
def crcByte (c : Word) (b : Byte) : Word :=
  crcBit (crcBit (crcBit (crcBit (crcBit (crcBit (crcBit (crcBit (c ^^^ (b.setWidth 32 <<< 24)))))))))

/-- The check continued over a string. -/
def crcFrom (c : Word) (l : List Byte) : Word := l.foldl crcByte c

/-- The register before the first byte. -/
def crcStart : Word := 0xFFFFFFFF

/-! ### Memories -/

/-- The byte at an address; an unlisted one reads 0 (log 7). -/
def memRead (m : Memory) (a : Nat) : Byte :=
  match m.find? (fun c => decide (c.1 = a)) with
  | some c => c.2
  | none => 0

/-- The listed form of a run of bytes from an address: zero bytes are not listed. -/
def listedBytes : Nat → List Byte → Memory
  | _, [] => []
  | a, b :: bs => if b = 0 then listedBytes (a + 1) bs else (a, b) :: listedBytes (a + 1) bs

/-- Write a run of bytes from an address. -/
def memWrite (m : Memory) (a : Nat) (bs : List Byte) : Memory :=
  m.filter (fun c => decide (c.1 < a)) ++ listedBytes a bs ++ m.filter (fun c => decide (a + bs.length ≤ c.1))

/-- Read a run of bytes from an address. -/
def memRange (m : Memory) (a n : Nat) : List Byte :=
  (List.range n).map fun i => memRead (m.filter fun c => decide (a ≤ c.1 ∧ c.1 < a + n)) (a + i)

/-- The canonical form: addresses strictly rising, and no listed byte 0. -/
abbrev Memory.wf (m : Memory) : Prop := m.Pairwise (fun x y => x.1 < y.1) ∧ ∀ c ∈ m, c.2 ≠ 0

/-- What a faulting write of a run leaves there: each byte new or as it was, by the free value (log 8). -/
def faultedBytes (m : Memory) (n a : Nat) (bs : List Byte) : List Byte :=
  bs.mapIdx fun i b => if Config.faultReach n i then b else memRead m (a + i)

/-- The number of a feed in addresses and codes: A 0, B 1. -/
def feedIndex : Feed → Nat
  | .A => 0
  | .B => 1

/-- The other feed. -/
def otherFeed : Feed → Feed
  | .A => .B
  | .B => .A

/-- Where cell `i` of a copy lies in the delay memory: position `i` of that copy's area. -/
def delayAddress (slot : Fin 256) (feed : Feed) (i : Nat) : Nat :=
  ((slot.val * 2 + feedIndex feed) * Config.copyCells + i) * Config.cellBytes

/-- R96: where byte `j` of a clip lies in the clip store. -/
def clipAddress (basePage j : Nat) : Nat := basePage * 63488 + j

/-- Cell `i` of a copy, as the feed port wrote it. -/
def State.delayCell (s : State) (slot : Fin 256) (feed : Feed) (i : Nat) : Cell :=
  cellOfBytes (memRange s.delay (delayAddress slot feed i) Config.cellBytes)

/-- Cell `i` of the clip at a base page, as it stands in the pages (R96, R111). -/
def State.clipCell (s : State) (basePage i : Nat) : Cell :=
  cellOfBytes (memRange s.clips.pages (clipAddress basePage (i * Config.cellBytes)) Config.cellBytes)

/-! ### The parts of State that come in numbers -/

/-- A feed port. -/
def State.port (s : State) : Feed → FeedPort
  | .A => s.portA
  | .B => s.portB

/-- State with one feed port replaced. -/
def State.setPort (s : State) (f : Feed) (p : FeedPort) : State :=
  match f with
  | .A => { s with portA := p }
  | .B => { s with portB := p }

/-- One feed's copy record in a slot. -/
def Slot.copy (sl : Slot) : Feed → Copy
  | .A => sl.copyA
  | .B => sl.copyB

/-- A slot with one copy record replaced. -/
def Slot.setCopy (sl : Slot) (f : Feed) (c : Copy) : Slot :=
  match f with
  | .A => { sl with copyA := c }
  | .B => { sl with copyB := c }

/-- A delay slot. -/
def State.slot (s : State) (i : Fin 256) : Slot := s.slots.slots.get i

/-- State with one delay slot replaced. -/
def State.setSlot (s : State) (i : Fin 256) (sl : Slot) : State :=
  { s with slots := { s.slots with slots := s.slots.slots.set i sl } }

/-- R11: the slot a block number uses, its low 8 bits. -/
def slotOf (b : Half) : Fin 256 := ⟨(b.extractLsb' 0 8).toNat, (b.extractLsb' 0 8).isLt⟩

/-- A channel. -/
def State.channel (s : State) (n : Fin 9) : Channel := s.channels.get n

/-- State with one channel replaced. -/
def State.setChannel (s : State) (n : Fin 9) (c : Channel) : State :=
  { s with channels := s.channels.set n c }

/-- The channel of a service. -/
def serviceChannel (n : Fin 8) : Fin 9 := n.castSucc

/-- A clip's directory entry. -/
def State.clip (s : State) (n : Fin 128) : ClipEntry := s.clips.entries.get n

/-- State with one directory entry replaced. -/
def State.setClip (s : State) (n : Fin 128) (e : ClipEntry) : State :=
  { s with clips := { s.clips with entries := s.clips.entries.set n e } }

/-- A Label Table record. -/
def State.label (s : State) (l : BitVec 11) : LabelRecord := s.emitter.labels.get ⟨l.toNat, l.isLt⟩

/-- State with one Label Table record replaced. -/
def State.setLabel (s : State) (l : BitVec 11) (r : LabelRecord) : State :=
  { s with emitter := { s.emitter with labels := s.emitter.labels.set ⟨l.toNat, l.isLt⟩ r } }

/-- A service's schedule, head first. -/
def State.schedule (s : State) (n : Fin 8) : List ScheduleEntry := s.splice.schedules.get n

/-- State with one service's schedule replaced. -/
def State.setSchedule (s : State) (n : Fin 8) (l : List ScheduleEntry) : State :=
  { s with splice := { s.splice with schedules := s.splice.schedules.set n l } }

/-- A Service Table entry. -/
def State.service (s : State) (n : Fin 8) : Service := s.splice.services.get n

/-- State with one Service Table entry replaced. -/
def State.setService (s : State) (n : Fin 8) (v : Service) : State :=
  { s with splice := { s.splice with services := s.splice.services.set n v } }

/-- State with one counter replaced. -/
def State.setCounter (s : State) (n : Fin 4) (c : Counter) : State :=
  { s with counters := s.counters.set n c }

/-- State with one alarm replaced. -/
def State.setAlarm (s : State) (n : Fin 4) (a : Alarm) : State :=
  { s with alarms := s.alarms.set n a }

/-- A cell leaves on the emission port (R72). -/
def State.send (s : State) (c : Cell) : State :=
  { s with out := { s.out with cell := some c, cells := s.out.cells + 1 } }

/-- A number as an index, when it is in range. -/
def index? (n k : Nat) : Option (Fin n) := if h : k < n then some ⟨k, h⟩ else none

end Sys2Proof.Machine
end

