-- ==== Sys2Proof/Machine/Flags.lean ====
section
/-! DEFINITION. Machine/Flags.lean: the 24 events, the Event Latch, Event Mask and new set (10, "Events"). -/

namespace Sys2Proof.Machine

/-- The events of 10, "Events". -/
inductive Event where
  | feedLostA | feedLostB | feedBack | feedSwitch | network | divergence | blockDrop | timeState | timeStep
  | refClock | overrun | mute | fallback | clipReady | clipFailed | clipFault | cueRefused | breakDone
  | counter (n : Fin 4)
  | alarmAny | listFault
deriving DecidableEq, Repr

/-- An event's position in every event set. -/
def Event.position : Event → Nat
  | .feedLostA => 0
  | .feedLostB => 1
  | .feedBack => 2
  | .feedSwitch => 3
  | .network => 4
  | .divergence => 5
  | .blockDrop => 6
  | .timeState => 7
  | .timeStep => 8
  | .refClock => 9
  | .overrun => 10
  | .mute => 11
  | .fallback => 12
  | .clipReady => 13
  | .clipFailed => 14
  | .clipFault => 15
  | .cueRefused => 16
  | .breakDone => 17
  | .counter n => 18 + n.val
  | .alarmAny => 22
  | .listFault => 23

/-- The event set holding one event. -/
def Event.bit (e : Event) : BitVec 24 := BitVec.ofNat 24 (2 ^ e.position)

/-- R180 on the engine: an event not in the latch joins it, and joins the new set when the mask holds it; one already
there changes nothing. -/
def Engine.latch (g : Engine) (e : Event) : Engine :=
  if g.latched.getLsbD e.position then g
  else { g with latched := g.latched ||| e.bit, fresh := g.fresh ||| (e.bit &&& g.mask) }

/-- A block latches an event (R180). -/
def State.latch (s : State) (e : Event) : State := { s with engine := s.engine.latch e }

/-- Latch an event when a condition holds. -/
def State.latchIf (s : State) (c : Bool) (e : Event) : State := if c then s.latch e else s

/-- The event a port latches at its silence expiry (R47). -/
def lostEvent : Feed → Event
  | .A => .feedLostA
  | .B => .feedLostB

end Sys2Proof.Machine
end

