-- ==== Sys2Proof/WellFormed.lean ====
section
/-! DEFINITION. WellFormed.lean: when a command's operands fit their fields. -/

namespace Sys2Proof

/-- The size in bytes of an entry of each space that a WRITE names (11, "Space entries"); 0 for any other number. -/
def entrySize (space : Byte) : Nat :=
  [6, 8, 24, 16, 44, 44, 28, 44, 16, 40, 12, 20, 4, 68, 380].getD space.toNat 0

/-- The most entry bytes a WRITE of a cell has room for: 232 parameter bytes less the 4 before the entry (R188). -/
def entryRoom : Nat := 228

/-- The entry bytes of a WRITE fit a management cell. -/
def entryFits (entry : List Byte) : Bool := decide (entry.length ≤ entryRoom)

/-- The entry of a named space's WRITE is whole: R190, "A WRITE carries the whole entry in the space's layout". -/
def entryWhole (space : Byte) (entry : List Byte) : Bool :=
  entryFits entry && decide (entrySize space ≤ entry.length)

/-- A command of the block is well formed. The index of a read in flight, and every byte operand, may take any value:
what an out-of-range one does is the part's own answer. -/
def WellFormed : Instr → Bool
  | .feedCellArrives _ _ _ => true
  | .millisecondEvent => true
  | .secondBoundary => true
  | .holdoverExpiry => true
  | .silenceExpiry _ => true
  | .markWindowOpen => true
  | .missedMark => true
  | .secondMark tick _ _ => decide (tick < Config.ticksPerSecond)
  | .refClockLoss => true
  | .refClockResume => true
  | .resetLine _ => true
  | .cellTime _ => true
  | .blockStart _ => true
  | .blockDiscard => true
  | .fallbackTimerExpiry => true
  | .fallbackEntry => true
  | .fetchReadCompletes _ _ => true
  | .loadCellTaken _ => true
  | .cueTaken => true
  | .cancelBreak _ _ _ => true
  | .mgmtCellTaken => true
  | .unknownCommand _ code => decide (code = 0 ∨ 15 < code.toNat)
  | .write _ _ _ entry => entryFits entry
  | .writeLabelTable _ _ entry => entryWhole 1 entry
  | .writeServiceTable _ _ entry => entryWhole 2 entry
  | .writeBreakMap _ _ entry => entryWhole 3 entry
  | .writeSiteSettings _ _ entry => entryWhole 9 entry
  | .writeCounters _ _ entry => entryWhole 10 entry
  | .writeListDescriptors _ _ entry => entryWhole 12 entry
  | .writeListStore _ _ entry => entryFits entry
  | .read _ _ _ _ => true
  | .describe _ _ => true
  | .clipDefine _ _ _ _ _ _ _ _ => true
  | .clipRelease _ _ => true
  | .clipFault _ => true
  | .counterStart _ _ => true
  | .counterStop _ _ => true
  | .counterLoad _ _ => true
  | .counterUnderflow _ => true
  | .alarmArm _ _ _ _ => true
  | .alarmDisarm _ _ => true
  | .alarmFires _ => true
  | .runList _ _ => true
  | .triggerTaken => true
  | .muteOn _ => true
  | .muteOff _ => true
  | .eventMaskSet _ _ => true
  | .eventMaskClear _ _ => true
  | .eventRead _ => true
  | .resetSiteTraffic _ => true
  | .resetSiteFull _ => true
  | .reportSent => true

end Sys2Proof
end

