-- ==== Sys2Proof/Machine/Operands.lean ====
section
/-! DEFINITION. Machine/Operands.lean: the fields read from payloads, command parameters and written entries
(11, Cell and Record Layouts). -/

namespace Sys2Proof.Machine

/-! ### Payloads of received cells -/

/-- The five fields of a TIMING cell (03, "TIMING cells"). -/
structure Timing where
  networkId : Half
  block : Half
  count : Half
  stamp : Stamp
  check : Word
deriving DecidableEq, Repr

/-- 11: TIMING 0-1 network id; 2-3 block number; 4-5 cell count; 6-9 emission stamp; 10-13 block check. -/
def readTiming (p : Payload) : Timing where
  networkId := halfAt p.items 0
  block := halfAt p.items 2
  count := halfAt p.items 4
  stamp := wordAt p.items 6
  check := wordAt p.items 10

/-- The six fields of a CUE cell (08, "Taking a cue"). -/
structure Cue where
  service : Byte
  action : Byte
  breakId : Half
  inBlock : Half
  outBlock : Half
  pt : Stamp
deriving DecidableEq, Repr

/-- 11: CUE 0 service; 1 action; 2-3 break id; 4-5 in-block; 6-7 out-block; 8-11 PT. -/
def readCue (p : Payload) : Cue where
  service := byteAt p.items 0
  action := byteAt p.items 1
  breakId := halfAt p.items 2
  inBlock := halfAt p.items 4
  outBlock := halfAt p.items 6
  pt := wordAt p.items 8

/-- 11: LOAD 0 clip number. -/
def loadClip (p : Payload) : Byte := byteAt p.items 0

/-- 11: LOAD 1-3 segment index. -/
def loadSegment (p : Payload) : Nat :=
  (byteAt p.items 1 ++ byteAt p.items 2 ++ byteAt p.items 3).toNat

/-- 11: LOAD 8-239 clip data. -/
def loadData (p : Payload) : List Byte := p.items.drop 8

/-- 11: MGMT 0 target form; 2-3 target value; 4-5 tag; 6 command code; 8-239 parameters. -/
structure Mgmt where
  form : Byte
  target : Half
  tag : Half
  code : Byte
  params : List Byte
deriving DecidableEq, Repr

/-- 11, MGMT. -/
def readMgmt (p : Payload) : Mgmt where
  form := byteAt p.items 0
  target := halfAt p.items 2
  tag := halfAt p.items 4
  code := byteAt p.items 6
  params := p.items.drop 8

/-! ### Commands (R188) -/

/-- A management command with its parameters as its code defines them. -/
inductive Command where
  | write (space : Byte) (index : Half) (entry : List Byte)
  | read (space count : Byte) (first : Half)
  | describe (space : Byte)
  | clipDefine (clip : Byte) (basePage pages : Half) (cells clipOrigin duration check : Word)
  | clipRelease (clip : Byte)
  | cancelBreak (service : Byte) (breakId : Half)
  | eventMask (op : Byte) (events : Word)
  | eventRead
  | clipFault
  | counter (n op : Byte)
  | alarmArm (alarm list : Byte) (target : Word)
  | alarmDisarm (alarm : Byte)
  | runList (list : Byte)
  | mute (op : Byte)
  | resetSite (scope : Byte)
  | unknown (code : Byte)
deriving DecidableEq, Repr

/-- The command code a reply carries, "as received" (R174). -/
def Command.code : Command → Byte
  | .write _ _ _ => 1
  | .read _ _ _ => 2
  | .describe _ => 3
  | .clipDefine _ _ _ _ _ _ _ => 4
  | .clipRelease _ => 5
  | .cancelBreak _ _ => 6
  | .eventMask _ _ => 7
  | .eventRead => 8
  | .clipFault => 9
  | .counter _ _ => 10
  | .alarmArm _ _ _ => 11
  | .alarmDisarm _ => 12
  | .runList _ => 13
  | .mute _ => 14
  | .resetSite _ => 15
  | .unknown code => code

/-- A WRITE reads no more entry bytes than the space's entry has: "Bytes after the last field the command uses are
ignored" (R188). -/
def takeEntry (space : Byte) (entry : List Byte) : List Byte := entry.take (entrySize space)

/-- R188: the command of a code and its parameter bytes. Code 0 and every code absent from the table are unknown. -/
def decodeCommand (code : Byte) (p : List Byte) : Command :=
  match code.toNat with
  | 1 => .write (byteAt p 0) (halfAt p 2) (takeEntry (byteAt p 0) (p.drop 4))
  | 2 => .read (byteAt p 0) (byteAt p 1) (halfAt p 2)
  | 3 => .describe (byteAt p 0)
  | 4 => .clipDefine (byteAt p 0) (halfAt p 2) (halfAt p 4) (wordAt p 6) (wordAt p 10) (wordAt p 14) (wordAt p 18)
  | 5 => .clipRelease (byteAt p 0)
  | 6 => .cancelBreak (byteAt p 0) (halfAt p 2)
  | 7 => .eventMask (byteAt p 0) (wordAt p 4)
  | 8 => .eventRead
  | 9 => .clipFault
  | 10 => .counter (byteAt p 0) (byteAt p 1)
  | 11 => .alarmArm (byteAt p 0) (byteAt p 1) (wordAt p 4)
  | 12 => .alarmDisarm (byteAt p 0)
  | 13 => .runList (byteAt p 0)
  | 14 => .mute (byteAt p 0)
  | 15 => .resetSite (byteAt p 0)
  | _ => .unknown code

/-! ### Label maps and lists in entries -/

/-- One map entry of a written space: 0xFFFF is none, 0-2046 a label, anything else cannot be read (R190). The answer
`none` says so. -/
def mapEntry? (x : Half) : Option (Option (BitVec 11)) :=
  if x = 0xFFFF then some none
  else if x.toNat ≤ 2046 then some (some (x.extractLsb' 0 11))
  else none

/-- The four map entries at an offset, or none when one cannot be read. -/
def readMap? (l : List Byte) (i : Nat) : Option LabelMap :=
  match mapEntry? (halfAt l i), mapEntry? (halfAt l (i + 2)), mapEntry? (halfAt l (i + 4)), mapEntry? (halfAt l (i + 6)) with
  | some a, some b, some c, some d => some ⟨[a, b, c, d], rfl⟩
  | _, _, _, _ => none

/-- The bytes of a label map, none as 0xFFFF (R187). -/
def mapBytes (m : LabelMap) : List Byte :=
  m.items.flatMap fun x =>
    match x with
    | some l => be16 (l.setWidth 16)
    | none => be16 0xFFFF

/-- Clip numbers 0-127 from bytes, or none when one is above 127. -/
def readClips? : List Byte → Option (List (Fin 128))
  | [] => some []
  | b :: bs =>
    match index? 128 b.toNat, readClips? bs with
    | some c, some cs => some (c :: cs)
    | _, _ => none

/-- The four clip-number bytes of a list of at most four, absent ones 0xFF (R187, log 15). -/
def clipBytes (l : List (Fin 128)) : List Byte :=
  ((l.map fun (c : Fin 128) => BitVec.ofNat 8 c.val) ++ List.replicate 4 0xFF).take 4

/-- A yes/no byte: 0 no, 1 yes, anything else cannot be read (R187). -/
def readYesNo? (b : Byte) : Option Bool :=
  if b = 0 then some false else if b = 1 then some true else none

/-- A role code (R187). -/
def readRole? (b : Byte) : Option Role :=
  if b = 0 then some .pass else if b = 1 then some .drop else if b = 2 then some .service else none

/-- A feed code (R187). -/
def readFeed? (b : Byte) : Option Feed :=
  if b = 0 then some .A else if b = 1 then some .B else none

/-- A counter source code (R187). -/
def readCounterSource? (b : Byte) : Option CounterSource :=
  if b = 0 then some .millisecond else if b = 1 then some .second
  else if b = 2 then some .block else if b = 3 then some .cascade else none

/-- A counter mode code (R187). -/
def readCounterMode? (b : Byte) : Option CounterMode :=
  if b = 0 then some .oneShot else if b = 1 then some .continuous else none

/-- A list number or 0xFF for none; other values cannot be read (R157, R162). -/
def readList? (b : Byte) : Option (Option (Fin 16)) :=
  if b = 0xFF then some none
  else match index? 16 b.toNat with
    | some n => some (some n)
    | none => none

/-- A clip number or 0xFF for none; other values cannot be read (R92). -/
def readClip? (b : Byte) : Option (Option (Fin 128)) :=
  if b = 0xFF then some none
  else match index? 128 b.toNat with
    | some n => some (some n)
    | none => none

/-! ### Codes shown (11, "Codes") -/

/-- status -/
def Status.code : Status → Byte
  | .ok => 0
  | .unknownCommand => 1
  | .badSpace => 2
  | .badIndex => 3
  | .badField => 4
  | .readOnly => 5
  | .busy => 6
  | .overlap => 7
  | .full => 8
  | .state => 9
  | .timePast => 10
  | .timeUnset => 11

/-- role -/
def Role.code : Role → Byte
  | .pass => 0
  | .drop => 1
  | .service => 2

/-- counter source -/
def CounterSource.code : CounterSource → Byte
  | .millisecond => 0
  | .second => 1
  | .block => 2
  | .cascade => 3

/-- counter mode -/
def CounterMode.code : CounterMode → Byte
  | .oneShot => 0
  | .continuous => 1

/-- slot state -/
def SlotState.code : SlotState → Byte
  | .free => 0
  | .opened => 1
  | .ready => 2
  | .emitting => 3

/-- copy state -/
def CopyState.code : CopyState → Byte
  | .empty => 0
  | .filling => 1
  | .good => 2
  | .bad => 3

/-- clip state -/
def ClipState.code : ClipState → Byte
  | .empty => 0
  | .loading => 1
  | .ready => 2

/-- channel state -/
def ChannelState.code : ChannelState → Byte
  | .parked => 0
  | .priming => 1
  | .serving => 2

/-- schedule state; 0 is an absent entry -/
def EntryState.code : EntryState → Byte
  | .pending => 1
  | .arming => 2
  | .armed => 3
  | .active => 4

/-- cue refusal reason; 0 is absent -/
def CueRefusal.code : CueRefusal → Byte
  | .badTime => 1
  | .badRange => 2
  | .late => 3
  | .state => 4
  | .clipAbsent => 5
  | .overlap => 6
  | .full => 7

/-- outcome -/
def BreakOutcome.code : BreakOutcome → Byte
  | .complete => 1
  | .truncated => 2
  | .aborted => 3
  | .cancelled => 4
  | .missed => 5
  | .reset => 6

/-- as-run reason -/
def BreakReason.code : BreakReason → Byte
  | .none => 0
  | .clipNotReady => 1
  | .clipFault => 2
  | .blocksMissing => 3

/-- time state -/
def TimeState.code : TimeState → Byte
  | .unset => 0
  | .acquiring => 1
  | .locked => 2
  | .holdover => 3
  | .freeRun => 4

/-- tick source -/
def TickSource.code : TickSource → Byte
  | .reference => 0
  | .localOsc => 1

/-- feed state -/
def FeedState.code : FeedState → Byte
  | .absent => 0
  | .tracking => 1
  | .lost => 2

/-- feed -/
def feedCode (f : Feed) : Byte := BitVec.ofNat 8 (feedIndex f)

/-- emitter state -/
def EmitterState.code : EmitterState → Byte
  | .muted => 0
  | .idle => 1
  | .block => 2
  | .fallback => 3

/-- fault reason -/
def FaultReason.code : FaultReason → Byte
  | .readError => 1
  | .writeError => 2

/-- fault access -/
def FaultAccess.code : FaultAccess → Byte
  | .fetch => 1
  | .load => 2

end Sys2Proof.Machine
end

