-- ==== Sys2Proof/Machine/Counters.lean ====
section
/-! DEFINITION. Machine/Counters.lean: the Counter Bank, the Time Alarms and the List Runner (09), up to the commands
themselves. -/

namespace Sys2Proof.Machine

/-! ### The List Runner: taking a trigger (R167, R168) -/

/-- R168: the body and tag the runner reads when it offers the command of a slot. A defined list names slots 0-255 only
(R165); past them there is no body, as in a cleared slot. -/
def State.storedAt (s : State) (k : Nat) : StoredCommand :=
  match index? 256 k with
  | some i => s.runner.store.get i
  | none => StoredCommand.cleared

/-- R168: a list stops on a failing command; the runner becomes IDLE. -/
def State.listFails (s : State) (l : Fin 16) (index : Nat) (st : Status) : State :=
  ({ s with runner := { s.runner with
      state := .idle
      fault := some ⟨l, index, st⟩
      counts := { s.runner.counts with faults := s.runner.counts.faults + 1 } } } : State).latch .listFault

/-- R167: an IDLE runner takes the oldest trigger and starts its list, offering its first command, or faults an
undefined one. -/
def State.takeTrigger (s : State) : State :=
  match s.runner.state, s.runner.triggers with
  | .idle, l :: rest =>
    let s1 : State := { s with runner := { s.runner with
      triggers := rest
      counts := { s.runner.counts with started := s.runner.counts.started + 1 } } }
    let d := s.runner.descriptors.get l
    if d.defined then
      { s1 with runner := { s1.runner with state := .running l d.first d.length 0 (s.storedAt d.first) } }
    else s1.listFails l 0 .state
  | _, _ => s

/-! ### The Pending Trigger Queue (R166, R167) -/

/-- Whether a push would be dropped (R166). -/
def State.triggersFull (s : State) : Bool := decide (Config.triggerRoom ≤ s.runner.triggers.length)

/-- R166: a list number joins the tail, or is dropped with LIST_FAULT. -/
def State.joinTrigger (s : State) (l : Fin 16) : State :=
  if s.triggersFull then
    ({ s with runner := { s.runner with
        lastLost := some l
        counts := { s.runner.counts with triggersLost := s.runner.counts.triggersLost + 1 } } } : State).latch .listFault
  else { s with runner := { s.runner with triggers := s.runner.triggers ++ [l] } }

/-- A number of takings, each nothing to a runner that is RUNNING or whose queue is empty. -/
def takeTriggers : Nat → State → State
  | 0, s => s
  | k + 1, s => takeTriggers k s.takeTrigger

/-- R167: while IDLE the runner takes triggers until one starts its list or none is left. -/
def State.runnerTakes (s : State) : State := takeTriggers s.runner.triggers.length s

/-- R166, R167: a push. An IDLE runner has taken what it waits for before it, and takes the pushed trigger at once. -/
def State.push (s : State) (l : Fin 16) : State := (s.runnerTakes.joinTrigger l).runnerTakes

/-- An action or an alarm's list, pushed when there is one. -/
def State.push? (s : State) : Option (Fin 16) → State
  | some l => s.push l
  | none => s

/-! ### Counters (R158, R159) -/

/-- The counter after its underflow: reloaded, counted, and stopped in ONE_SHOT (R159). -/
def Counter.underflowed (c : Counter) : Counter :=
  { c with value := c.latch, underflows := c.underflows + 1, running := c.running && decide (c.mode = .continuous) }

/-- The counter a pulse reaches next in a cascade: the one above, when it is running with source CASCADE (R159). -/
def State.cascadeTo (s : State) (n : Fin 4) : Option (Fin 4) :=
  match index? 4 (n.val + 1) with
  | some k => if (s.counters.get k).running && decide ((s.counters.get k).source = .cascade) then some k else none
  | none => none

/-- R159, steps 1 to 4, of one counter. -/
def State.underflowOne (s : State) (n : Fin 4) : State :=
  ((s.setCounter n (s.counters.get n).underflowed).latch (.counter n)).push? (s.counters.get n).action

/-- R158, R159: one pulse of a counter, with its underflow and the cascade above it. The fuel is the number of counters
a chain can have. -/
def pulseFrom : Nat → Fin 4 → State → State
  | 0, _, s => s
  | fuel + 1, n, s =>
    if (s.counters.get n).running = false then s
    else if (s.counters.get n).value = 1 then
      match (s.underflowOne n).cascadeTo n with
      | some k => pulseFrom fuel k (s.underflowOne n)
      | none => s.underflowOne n
    else s.setCounter n { s.counters.get n with value := (s.counters.get n).value - 1 }

/-- One pulse of a counter. -/
def State.pulse (s : State) (n : Fin 4) : State := pulseFrom 4 n s

/-- One event of a source: its counters in ascending number (R158). -/
def State.pulseAll (s : State) (src : CounterSource) : State :=
  ([0, 1, 2, 3] : List (Fin 4)).foldl
    (fun s n => if (s.counters.get n).source = src then s.pulse n else s) s

/-! ### Time Alarms (R163) -/

/-- R163: an armed alarm has reached its target. -/
def State.alarmReached (s : State) (n : Fin 4) : Bool :=
  let a := s.alarms.get n
  let past := (s.time.seconds - a.targetSeconds).toNat
  a.armed && (decide (1 ≤ past ∧ past ≤ 2147483647) ||
    (decide (s.time.seconds = a.targetSeconds) && decide (a.targetTicks ≤ s.time.ticks.val)))

/-- R163: an alarm fires. -/
def State.fireAlarm (s : State) (n : Fin 4) : State :=
  let a := s.alarms.get n
  ((s.setAlarm n { a with armed := false, fires := a.fires + 1 }).latch .alarmAny).push? a.list

/-- R163: the test of every armed alarm, in ascending number. -/
def State.alarmTest (s : State) : State :=
  ([0, 1, 2, 3] : List (Fin 4)).foldl (fun s n => if s.alarmReached n then s.fireAlarm n else s) s

/-! ### Commands of the bank (R160, R162, R164, R166) -/

/-- COUNTER with an operation: START 1, STOP 2, LOAD 3 (R160, R188). -/
def counterCommand (s : State) (counter op : Byte) : Status × State :=
  match index? 4 counter.toNat with
  | none => (.badField, s)
  | some n =>
    let c := s.counters.get n
    if op = 1 then (.ok, s.setCounter n { c with value := c.latch, running := true })
    else if op = 2 then (.ok, s.setCounter n { c with running := false })
    else if op = 3 then (.ok, s.setCounter n { c with value := c.latch })
    else (.badField, s)

/-- R162: the target time, now advanced by d ticks. -/
def targetTime (t : SiteTime) (d : Nat) : Word × Nat :=
  (t.seconds + BitVec.ofNat 32 ((t.ticks.val + d) / Config.ticksPerSecond), (t.ticks.val + d) % Config.ticksPerSecond)

/-- ALARM_ARM (R162). R162 gives a target time only for d of 1 to 1,270,000,000. An alarm that fires at once, d being
−10,000,000 to 0, takes the new target stamp and list and keeps the target time it had. DESIGN CHOICE (log 36). -/
def armAlarm (s : State) (alarm list : Byte) (target : Word) : Status × State :=
  match index? 4 alarm.toNat, readList? list with
  | some n, some l =>
    if stampValid target = false then (.badField, s)
    else if s.time.state = .unset then (.timeUnset, s)
    else
      let d := diff target s.now
      let a := s.alarms.get n
      if d < -10000000 then (.timePast, s)
      else if 1270000000 < d then (.badField, s)
      else if d ≤ 0 then (.ok, (s.setAlarm n { a with target := target, list := l }).fireAlarm n)
      else
        (.ok, s.setAlarm n
          { a with
            armed := true
            target := target
            targetSeconds := (targetTime s.time d.toNat).1
            targetTicks := (targetTime s.time d.toNat).2
            list := l })
  | _, _ => (.badField, s)

/-- ALARM_DISARM (R164). -/
def disarmAlarm (s : State) (alarm : Byte) : Status × State :=
  match index? 4 alarm.toNat with
  | none => (.badField, s)
  | some n => (.ok, s.setAlarm n { s.alarms.get n with armed := false })

/-- RUN_LIST (R166, R179). -/
def runListCommand (s : State) (list : Byte) : Status × State :=
  match index? 16 list.toNat with
  | none => (.badField, s)
  | some l => (if s.runnerTakes.triggersFull then .full else .ok, s.push l)

/-! ### The List Runner: its commands (R168) -/

/-- R168: the status of a runner's command comes back. -/
def State.returnStatus (s : State) (st : Status) : State :=
  match s.runner.state with
  | .idle => s
  | .running l first length index _ =>
    if st = .ok then
      if index + 1 = length then
        { s with runner := { s.runner with
          state := .idle
          counts := { s.runner.counts with completed := s.runner.counts.completed + 1 } } }
      else
        { s with runner := { s.runner with
          state := .running l first length (index + 1) (s.storedAt (first + (index + 1))) } }
    else s.listFails l index st

/-- R168: the tag and command the runner has offered. The engine takes its 64 parameter bytes "with no more" (R188). -/
def State.offered? (s : State) : Option (Half × Command) :=
  match s.runner.state with
  | .idle => none
  | .running _ _ _ _ c => some (c.tag, decodeCommand c.code c.params.items)

/-! ### Rows -/

/-- COUNTER_UNDERFLOW (R159): the pulse that takes a running counter from 1 to 0. A counter that is stopped or whose
value is not 1 has no underflow (log 1). The row is one pulse of that counter alone, whatever its source, where R158 has
a pulse only at an event of the source, which every counter of that source takes. DESIGN CHOICE (log 1). -/
def execCounterUnderflow (n : Fin 4) (s : State) : Host.Outcome State Fault Refusal :=
  if (s.counters.get n).running && decide ((s.counters.get n).value = 1) then .next (s.pulse n) else .next s

/-- ALARM_FIRES (R163): an armed alarm whose target is reached fires; any other does not. The row fires a reached alarm
at whatever tick it comes, where R163 has tests only at millisecond events and notices. DESIGN CHOICE (log 1). -/
def execAlarmFires (n : Fin 4) (s : State) : Host.Outcome State Fault Refusal :=
  if s.alarmReached n then .next (s.fireAlarm n) else .next s

/-- TRIGGER_TAKEN (R167), for a trigger that waited while a list ran (log 27). -/
def execTriggerTaken (s : State) : Host.Outcome State Fault Refusal := .next s.takeTrigger

end Sys2Proof.Machine
end

