-- ==== Sys2Proof/Machine/Slots.lean ====
section
/-! DEFINITION. Machine/Slots.lean: the Slot Table (04): withdrawal and freeing, loss, insertion in the Emission Queue,
dispatch, the two reports of a port, and the answer to an offer. -/

namespace Sys2Proof.Machine

/-! ### Withdrawal and freeing (R41, R52) -/

/-- R41 from the port's side: a withdrawal of the copy in a slot reaches a port that fills it, or finds no copy. -/
def FeedPort.withdrawn (p : FeedPort) (i : Fin 256) : FeedPort :=
  match p.current with
  | some c =>
    if c.slot = i then { p with current := none, counts := { p.counts with withdrawn := p.counts.withdrawn + 1 } } else p
  | none => p

/-- R41: the Slot Table withdraws one feed's copy of a slot when it is FILLING. -/
def State.withdrawCopy (s : State) (i : Fin 256) (f : Feed) : State :=
  if ((s.slot i).copy f).state = .filling then s.setPort f ((s.port f).withdrawn i) else s

/-- R41, R52: both copies of a slot that is about to return to FREE. -/
def State.withdrawCopies (s : State) (i : Fin 256) : State := (s.withdrawCopy i .A).withdrawCopy i .B

/-- R52: a slot returns to FREE, its FILLING copies withdrawn. -/
def State.freeSlot (s : State) (i : Fin 256) : State := (s.withdrawCopies i).setSlot i Slot.free

/-- The Slot Table's counts changed. -/
def State.countSlots (s : State) (f : SlotCounts → SlotCounts) : State :=
  { s with slots := { s.slots with counts := f s.slots.counts } }

/-! ### Loss (R58) -/

/-- A copy may still give the block: GOOD or FILLING. -/
def Copy.alive (c : Copy) : Bool := decide (c.state = .good ∨ c.state = .filling)

/-- R58: an OPEN slot is lost. -/
def State.slotLost (s : State) (i : Fin 256) : Bool :=
  let sl := s.slot i
  decide (sl.state = .opened) && !sl.copyA.alive && !sl.copyB.alive &&
    ((decide (sl.copyA.state = .bad) && decide (sl.copyB.state = .bad)) || s.reached sl.stamp)

/-- R58: the test of one slot, which frees it when it is lost. -/
def State.lossTest (s : State) (i : Fin 256) : State :=
  if s.slotLost i then
    ((s.freeSlot i).countSlots fun c => { c with lost := c.lost + 1 }).latch .blockDrop
  else s

/-- The numbers of the OPEN slots in a list of slots, the first of them number `k`. -/
def openFrom (k : Nat) : List Slot → List (Fin 256)
  | [] => []
  | sl :: rest =>
    match sl.state with
    | .opened => Fin.ofNat 256 k :: openFrom (k + 1) rest
    | .free | .ready | .emitting => openFrom (k + 1) rest

/-- The numbers of the OPEN slots, in order. -/
def State.openSlots (s : State) : List (Fin 256) := openFrom 0 s.slots.slots.items

/-- R58: the test of every OPEN slot at a millisecond event. -/
def State.lossTests (s : State) : State := s.openSlots.foldl State.lossTest s

/-! ### Dispatch (R61) -/

/-- R61, R136: a CUE cell goes to the cue intake, or is dropped at a full one as a bad cue is counted. -/
def State.handCue (s : State) (c : Cell) : State :=
  let s1 := s.countSlots fun k => { k with cues := k.cues + 1 }
  if s1.splice.intake.length < Config.intakeRoom then
    { s1 with splice := { s1.splice with intake := s1.splice.intake ++ [c.payload] } }
  else
    ({ s1 with splice := { s1.splice with badCues := s1.splice.badCues + 1 } } : State).latch .cueRefused

/-- R61, R173: an MGMT cell goes to the Command Intake, or is dropped and counted. -/
def State.handMgmt (s : State) (c : Cell) : State :=
  let s1 := s.countSlots fun k => { k with mgmts := k.mgmts + 1 }
  if s1.engine.intake.length < Config.intakeRoom then
    { s1 with engine := { s1.engine with intake := s1.engine.intake ++ [c.payload] } }
  else
    { s1 with engine := { s1.engine with
        counts := { s1.engine.counts with overflows := s1.engine.counts.overflows + 1 } } }

/-- R61, R101: a LOAD cell goes to the load intake, or is dropped; its hand-over is counted either way (log 13). -/
def State.handLoad (s : State) (c : Cell) : State :=
  let s1 := s.countSlots fun k => { k with loads := k.loads + 1 }
  if s1.clips.intake.length < Config.intakeRoom then
    { s1 with clips := { s1.clips with intake := s1.clips.intake ++ [c.payload] } }
  else s1

/-- R61: one cell handed over by its kind. -/
def State.handOver (s : State) (c : Cell) : State :=
  if c.kind = kindCue then s.handCue c
  else if c.kind = kindMgmt then s.handMgmt c
  else if c.kind = kindLoad then s.handLoad c
  else s

/-- R61: the dispatch of a block from a copy, index 0 up to cell count − 1. Its DDR reads never fault: R82 speaks of
emission reads only. DESIGN CHOICE (log 28). -/
def State.dispatch (s : State) (i : Fin 256) (f : Feed) : State :=
  ((List.range (s.slot i).count).map fun k => s.delayCell i f k).foldl State.handOver s

/-! ### The Emission Queue (R62) -/

/-- R62: a queued stamp is after the new one. -/
def State.queuedAfter (s : State) (stamp : Stamp) (q : Fin 256) : Bool := decide (0 < diff (s.slot q).stamp stamp)

/-- R62: the place of a new slot: immediately before the first queued slot whose stamp is after its own. -/
def State.insertQueue (s : State) (i : Fin 256) : List (Fin 256) → List (Fin 256)
  | [] => [i]
  | q :: qs => if s.queuedAfter (s.slot i).stamp q then i :: q :: qs else q :: s.insertQueue i qs

/-- R62: some queued slot has the slot's stamp. -/
def State.clashes (s : State) (i : Fin 256) : Bool :=
  s.slots.queue.any fun q => decide ((s.slot q).stamp = (s.slot i).stamp)

/-- R62: insertion of a slot whose block has just been dispatched, or the stamp clash. -/
def State.enqueue (s : State) (i : Fin 256) : State :=
  if s.clashes i then
    ((s.freeSlot i).countSlots fun c => { c with stampClashes := c.stampClashes + 1 }).latch .divergence
  else { s with slots := { s.slots with queue := s.insertQueue i s.slots.queue } }

/-! ### The reports of a port (R53, R58 to R60) -/

/-- R53: a report names the block and finds the feed's copy FILLING; any other report is ignored. -/
def State.reportFits (s : State) (f : Feed) (c : CopyRef) : Bool :=
  let sl := s.slot c.slot
  decide (sl.state ≠ .free) && decide (sl.block = c.block) && decide ((sl.copy f).state = .filling)

/-- R53, R58: a BAD report with the cells received. -/
def State.reportBad (s : State) (f : Feed) (c : CopyRef) (received : Nat) : State :=
  if s.reportFits f c then
    (s.setSlot c.slot ((s.slot c.slot).setCopy f ⟨.bad, received⟩)).lossTest c.slot
  else s

/-- R59: the first GOOD copy before the stamp: READY, queued or clashing, dispatched, and counted (log 14). -/
def State.slotReady (s : State) (i : Fin 256) (f : Feed) : State :=
  let s1 := (s.setSlot i { s.slot i with state := .ready, dispatched := true }).countSlots fun c =>
    { c with ready := c.ready + 1 }
  (s1.dispatch i f).enqueue i

/-- R60: the first GOOD copy at or after the stamp: dispatched and freed. -/
def State.slotTooLate (s : State) (i : Fin 256) (f : Feed) : State :=
  (((s.dispatch i f).freeSlot i).countSlots fun c => { c with lateCompletions := c.lateCompletions + 1 }).latch
    .blockDrop

/-- R53, R59, R60: a GOOD report. -/
def State.reportGood (s : State) (f : Feed) (c : CopyRef) : State :=
  if s.reportFits f c then
    let sl := s.slot c.slot
    let s1 := s.setSlot c.slot (sl.setCopy f ⟨.good, sl.count⟩)
    if sl.state = .opened then
      if s.reached sl.stamp then s1.slotTooLate c.slot f else s1.slotReady c.slot f
    else s1
  else s

/-! ### Admission (R54 to R57) -/

/-- The six answers of R46. -/
inductive OfferAnswer where
  | accept | late | early | duplicate | divergence | collision
deriving DecidableEq, Repr

/-- R55: a FREE slot opens. -/
def openedSlot (f : Feed) (b : Half) (stamp : Stamp) (count : Nat) : Slot :=
  ({ Slot.free with state := .opened, block := b, stamp := stamp, count := count } : Slot).setCopy f ⟨.filling, 0⟩

/-- R55 to R57: the comparison with the slot of the block number. -/
def State.compareOffer (s : State) (f : Feed) (b : Half) (stamp : Stamp) (count : Nat) : OfferAnswer × State :=
  let i := slotOf b
  let sl := s.slot i
  if sl.state = .free then
    (.accept, (s.setSlot i (openedSlot f b stamp count)).countSlots fun c => { c with opened := c.opened + 1 })
  else if sl.block ≠ b then (.collision, s.latch .blockDrop)
  else if sl.stamp ≠ stamp ∨ sl.count ≠ count then (.divergence, s.latch .divergence)
  else if sl.state = .emitting then (.late, s)
  else if (sl.copy f).state = .empty then (.accept, s.setSlot i (sl.setCopy f ⟨.filling, 0⟩))
  else (.duplicate, s)

/-- R54 to R57: the answer to an offer, and the part after it. -/
def State.offer (s : State) (f : Feed) (b : Half) (stamp : Stamp) (count : Nat) : OfferAnswer × State :=
  let lead := diff stamp s.now
  if lead < (s.slots.minLead : Int) then (.late, s.latch .blockDrop)
  else if (s.slots.maxAhead : Int) < lead then (.early, s.latch .blockDrop)
  else (s.lossTest (slotOf b)).compareOffer f b stamp count

end Sys2Proof.Machine
end

