-- ==== Sys2Proof/Machine/Labels.lean ====
section
/-! DEFINITION. Machine/Labels.lean: the Label Table at emission (05, R84 to R86). -/

namespace Sys2Proof.Machine

/-- Discontinuity pending becomes yes on every record a test picks (R86). -/
def State.pendWhere (s : State) (p : LabelRecord → Bool) : State :=
  { s with emitter := { s.emitter with
      labels := s.emitter.labels.map fun r => if p r then { r with pending := true } else r } }

/-- R86, Splice Unit request: every record whose role is SERVICE with service n. -/
def State.pendService (s : State) (n : Fin 8) : State :=
  s.pendWhere fun r => decide (r.role = .service ∧ r.service.toNat = n.val)

/-- R86, TRAFFIC reset: every record. -/
def State.pendAll (s : State) : State := s.pendWhere fun _ => true

/-- Discontinuity pending becomes yes on one record. -/
def State.pendLabel (s : State) (l : BitVec 11) : State := s.setLabel l { s.label l with pending := true }

/-- R86, end of fallback: every record named as an output label in the map. -/
def State.pendMap (s : State) (m : LabelMap) : State :=
  m.items.foldl (fun s x => match x with | some l => s.pendLabel l | none => s) s

/-- R84: a programme cell leaves on its own label with the sequence it arrived with. -/
def State.sendPassed (s : State) (c : Cell) : State :=
  let r := s.label c.label
  (s.setLabel c.label { r with lastSeq := some c.seq, pending := false, emitted := r.emitted + 1 }).send
    { c with disc := c.disc || r.pending }

/-- R85: the sequence of a label's next substituted or fallback cell. -/
def LabelRecord.nextSeq (r : LabelRecord) : BitVec 6 :=
  match r.lastSeq with
  | some q => q + 1
  | none => 0

/-- R85: a substituted or fallback DATA cell leaves; only a new pass of the fallback clip sets the flag (R89). Its spare
bits are sent as zero (R187). -/
def State.sendClip (s : State) (c : Cell) (newPass : Bool) : State :=
  let r := s.label c.label
  (s.setLabel c.label { r with lastSeq := some r.nextSeq, emitted := r.emitted + 1 }).send
    { c with seq := r.nextSeq, disc := newPass, spare := 0 }

/-- A cell from a Playout Queue leaves: a DATA cell by R85, a null cell as a null cell. -/
def State.sendQueued (s : State) (c : Cell) (newPass : Bool) : State :=
  if cellIsData c then s.sendClip c newPass else s.send c

end Sys2Proof.Machine
end

