-- ==== Sys2Proof/Machine/Clips.lean ====
section
/-! DEFINITION. Machine/Clips.lean: the Clip Store (06): defining and releasing clips, loading by carousel, use counts
and the Clip Fault Record. -/

namespace Sys2Proof.Machine

/-! ### Use counts (R108 to R110) -/

/-- Add a namings change to a clip's use count. -/
def State.addUse (s : State) (n : Fin 128) : State :=
  s.setClip n { s.clip n with useCount := (s.clip n).useCount + 1 }

/-- Take one naming from a clip's use count. -/
def State.dropUse (s : State) (n : Fin 128) : State :=
  s.setClip n { s.clip n with useCount := (s.clip n).useCount - 1 }

/-- R109, a list release: each naming decreases the named clip's use count by one. -/
def State.releaseList (s : State) (l : List (Fin 128)) : State := l.foldl State.dropUse s

/-- R109, a claim: none when some named entry is EMPTY, else each naming counted. -/
def State.claim? (s : State) (l : List (Fin 128)) : Option State :=
  if l.any fun n => decide ((s.clip n).state = .empty) then none else some (l.foldl State.addUse s)

/-- R110: the fallback designation moves. -/
def State.designate (s : State) (new : Option (Fin 128)) : State :=
  if new = s.emitter.fallbackClip then s
  else
    let s1 := match new with
      | some n => s.addUse n
      | none => s
    match s.emitter.fallbackClip with
    | some n => s1.dropUse n
    | none => s1

/-! ### The Clip Fault Record (R113 to R115) -/

/-- R114: a fault fills the record and latches CLIP_FAULT, or is counted. -/
def State.enterFault (s : State) (reason : FaultReason) (access : FaultAccess) (clip : Fin 128) (index : Nat)
    (channel : Option (Fin 9)) : State :=
  let r := s.clips.record
  if r.frozen then
    { s with clips := { s.clips with record := { r with whileFrozen := r.whileFrozen + 1 } } }
  else
    ({ s with clips := { s.clips with record :=
        { frozen := true
          reason := some reason
          access := some access
          clip := some clip
          index := some index
          channel := channel
          block := s.emitter.current.map CurrentBlock.block
          whileFrozen := r.whileFrozen } } } : State).latch .clipFault

/-! ### CLIP_DEFINE and CLIP_RELEASE (R98 to R100) -/

/-- The page range of an entry that is not EMPTY shares a page with a range (R98, test 5). -/
def sharesPage (e : ClipEntry) (base pages : Nat) : Bool :=
  decide (e.state ≠ .empty ∧ e.basePage < base + pages ∧ base < e.basePage + e.pages)

/-- R98, R99. -/
def defineClip (s : State) (clip : Byte) (basePage pages : Half) (cells clipOrigin duration check : Word) :
    Status × State :=
  match index? 128 clip.toNat with
  | none => (.badField, s)
  | some n =>
    if (s.clip n).state ≠ .empty then (.busy, s)
    else if basePage.toNat > 4095 ∨ pages.toNat < 1 ∨ pages.toNat > 4096 ∨ cells.toNat < 1 ∨ cells.toNat > 1048576
        ∨ stampValid clipOrigin = false ∨ duration.toNat > 1280000000 then (.badField, s)
    else if pages.toNat < (cells.toNat + 255) / 256 ∨ basePage.toNat + pages.toNat > 4096 then (.badField, s)
    else if s.clips.entries.items.any fun e => sharesPage e basePage.toNat pages.toNat then (.overlap, s)
    else
      (.ok, s.setClip n
        { s.clip n with
          state := .loading
          basePage := basePage.toNat
          pages := pages.toNat
          cells := cells.toNat
          origin := clipOrigin
          duration := duration.toNat
          declaredCheck := check
          nextSegment := 0
          runningCheck := crcStart
          played := false
          written := false })

/-- R100. -/
def releaseClip (s : State) (clip : Byte) : Status × State :=
  match index? 128 clip.toNat with
  | none => (.badField, s)
  | some n =>
    if (s.clip n).state = .empty then (.state, s)
    else if (s.clip n).useCount > 0 then (.busy, s)
    else (.ok, s.setClip n ClipEntry.empty)

/-! ### Loading by carousel (R101 to R107) -/

/-- R102: the number of segments of a clip. -/
def segmentTotal (cells : Nat) : Nat := (cells * Config.cellBytes + 231) / Config.segmentBytes

/-- R102: the meaningful bytes of a segment. -/
def segmentLength (cells segment : Nat) : Nat :=
  min Config.segmentBytes (cells * Config.cellBytes - segment * Config.segmentBytes)

/-- R105: the load completes when next segment has reached the total. -/
def completeLoad (s : State) (n : Fin 128) : State :=
  let e := s.clip n
  if e.nextSegment = segmentTotal e.cells then
    if e.runningCheck = e.declaredCheck then (s.setClip n { e with state := .ready }).latch .clipReady
    else
      (s.setClip n { e with nextSegment := 0, runningCheck := crcStart, failures := e.failures + 1 }).latch .clipFailed
  else s

/-- R103: the expected segment is written, checked and counted. -/
def writeSegment (s : State) (n : Fin 128) (bytes : List Byte) : State :=
  let e := s.clip n
  let s1 : State := { s with clips := { s.clips with
    pages := memWrite s.clips.pages (clipAddress e.basePage (e.nextSegment * Config.segmentBytes)) bytes
    counts := { s.clips.counts with segmentsWritten := s.clips.counts.segmentsWritten + 1 } } }
  completeLoad
    (s1.setClip n
      { e with
        runningCheck := crcFrom e.runningCheck bytes
        written := true
        nextSegment := e.nextSegment + 1 }) n

/-- R107: the write of a segment faults. Which of its bytes reached the pages is free (log 8). -/
def faultSegment (s : State) (n : Fin 128) (bytes : List Byte) : State :=
  let e := s.clip n
  let a := clipAddress e.basePage (e.nextSegment * Config.segmentBytes)
  let s1 := s.enterFault .writeError .load n e.nextSegment none
  let s2 : State := { s1 with
    clips := { s1.clips with
      pages := memWrite s1.clips.pages a (faultedBytes s1.clips.pages s.faultCount a bytes)
      counts := { s1.clips.counts with writeFaults := s1.clips.counts.writeFaults + 1 } }
    faultCount := s.faultCount + 1 }
  s2.setClip n { e with written := true }

/-- The segment's bytes would lie outside the clip store: the DDR has no such address, so the access faults (log 9). -/
def outsideStore (basePage j length : Nat) : Bool :=
  decide (Config.clipStoreBytes < clipAddress basePage j + length)

/-- A LOAD cell for a LOADING clip (R103, R104, R107). -/
def loadSegmentInto (s : State) (n : Fin 128) (p : Payload) (writeFault : Bool) : State :=
  let e := s.clip n
  let k := loadSegment p
  if k = e.nextSegment then
    let bytes := (loadData p).take (segmentLength e.cells k)
    if writeFault || outsideStore e.basePage (k * Config.segmentBytes) bytes.length then faultSegment s n bytes
    else writeSegment s n bytes
  else if k < e.nextSegment then s.setClip n { e with repeats := e.repeats + 1 }
  else s.setClip n { e with gaps := e.gaps + 1 }

/-- One LOAD cell taken from the intake, judged against its clip's entry (R101, R106). -/
def takeLoad (s : State) (p : Payload) (writeFault : Bool) : State :=
  let s1 : State := { s with clips := { s.clips with
    counts := { s.clips.counts with loadCells := s.clips.counts.loadCells + 1 } } }
  match index? 128 (loadClip p).toNat with
  | none =>
    { s1 with clips := { s1.clips with
      counts := { s1.clips.counts with unknownClips := s1.clips.counts.unknownClips + 1 } } }
  | some n =>
    match (s1.clip n).state with
    | .loading => loadSegmentInto s1 n p writeFault
    | .ready | .empty => s1.setClip n { s1.clip n with repeats := (s1.clip n).repeats + 1 }

/-- LOAD_CELL_TAKEN (R101): the Clip Store takes the oldest LOAD cell of the load intake; an empty intake gives it
none to take. -/
def execLoadCellTaken (writeFault : Bool) (s : State) : Host.Outcome State Fault Refusal :=
  match s.clips.intake with
  | [] => .next s
  | p :: rest => .next (takeLoad { s with clips := { s.clips with intake := rest } } p writeFault)

end Sys2Proof.Machine
end

