-- ==== Sys2Proof/Machine/Playout.lean ====
section
/-! DEFINITION. Machine/Playout.lean: the nine Playout Queues (07): prime, fetch, completion, take and flush. -/

namespace Sys2Proof.Machine

/-! ### Fetches (R122) -/

/-- The clip at the fetch pointer's list index. -/
def Channel.clipNow (c : Channel) : Option (Fin 128) := c.clips[c.listIndex]?

/-- The conditions of R122 on the channel itself. -/
def Channel.wantsFetch (c : Channel) : Bool :=
  decide (c.state ≠ .parked) && !c.inFlight && !c.exhausted && !c.halted &&
  (if c.state = .priming then decide (c.queue.length < c.depth) else decide (c.queue.length ≤ c.refill))

/-- The count of the next fetch: the least of 32, the cells left in the clip, and the room (R122). -/
def Channel.fetchCount (c : Channel) (clipCells : Nat) : Nat :=
  min Config.fetchCells (min (clipCells - c.cellIndex) (c.depth - c.queue.length))

/-- A channel issues a fetch when the conditions of R122 hold; the Clip Store takes the request and the read is in
flight from then on (R111). -/
def State.fetchTest (s : State) (n : Fin 9) : State :=
  let c := s.channel n
  match c.clipNow with
  | none => s
  | some k =>
    let m := c.fetchCount (s.clip k).cells
    if c.wantsFetch && decide (0 < m) then
      { s.setChannel n { c with inFlight := true, inFlightCount := m } with
        clips := { s.clips with reads := s.clips.reads ++
          [{ channel := n, clip := k, first := c.cellIndex, count := m, basePage := (s.clip k).basePage
             generation := c.generation, stale := false }] } }
    else s

/-! ### Prime and flush (R121, R129) -/

/-- R121, steps 1 to 5. -/
def Channel.primed (c : Channel) (clips : List (Fin 128)) (m : LabelMap) (pt : Stamp) : Channel :=
  { c with
    queue := []
    generation := c.generation + 1
    inFlight := false
    inFlightCount := 0
    clips := clips
    labelMap := some m
    base := pt
    listIndex := 0
    cellIndex := 0
    exhausted := false
    halted := false
    passMarkDue := false
    state := .priming }

/-- R121: a prime of a channel, with its first fetch. -/
def State.prime (s : State) (n : Fin 9) (clips : List (Fin 128)) (m : LabelMap) (pt : Stamp) : State :=
  (s.setChannel n ((s.channel n).primed clips m pt)).fetchTest n

/-- R129: the flushed and parked channel. -/
def Channel.flushed (c : Channel) : Channel :=
  { c with
    queue := []
    generation := c.generation + 1
    inFlight := false
    inFlightCount := 0
    clips := []
    labelMap := none
    listIndex := 0
    cellIndex := 0
    exhausted := false
    halted := false
    passMarkDue := false
    state := .parked }

/-- R129: a flush of a channel. -/
def State.flush (s : State) (n : Fin 9) : State := s.setChannel n (s.channel n).flushed

/-! ### Takes (R128) -/

/-- What a take answers: the cell, its tag, its clip-end and pass marks, and the word underrun, which goes with a null
cell, no tag and no marks (R128). -/
structure Taken where
  cell : Cell
  tag : Option Nat
  clipEnd : Bool
  passMark : Bool
  underrun : Bool
deriving DecidableEq, Repr

/-- A take makes a PRIMING channel SERVING and leaves a PARKED one PARKED (R128). -/
def Channel.servedState (c : Channel) : ChannelState := if c.state = .parked then .parked else .serving

/-- R128: the head entry is removed and handed over, or a null cell with an underrun counted. -/
def State.take (s : State) (n : Fin 9) : Taken × State :=
  let c := s.channel n
  match c.queue with
  | e :: rest =>
    (⟨e.cell, some e.tag, e.clipEnd, e.passMark, false⟩,
      (s.setChannel n { c with queue := rest, state := c.servedState }).fetchTest n)
  | [] =>
    (⟨nullCell, none, false, false, true⟩,
      (s.setChannel n { c with underruns := c.underruns + 1, state := c.servedState }).fetchTest n)

/-! ### Completions (R123 to R127) -/

/-- R124: the unit time of a queued DATA cell, re-based when unit start is set and it is valid. -/
def rebased (c : Cell) (base origin : Stamp) : Stamp :=
  if c.unitStart && stampValid c.unitTime then addTicks base (diff c.unitTime origin) else c.unitTime

/-- R123: what one fetched cell becomes, and whether it counts as malformed or as an invalid time. -/
structure Judged where
  cell : Cell
  malformed : Bool
  invalidTime : Bool
deriving DecidableEq, Repr

/-- The output label a channel's map gives a clip label 0-3. -/
def Channel.mapped (c : Channel) (l : BitVec 11) : Option (BitVec 11) :=
  match c.labelMap, index? 4 l.toNat with
  | some m, some i => m.get i
  | _, _ => none

/-- R123: one fetched cell judged. -/
def Channel.judge (c : Channel) (origin : Stamp) (x : Cell) : Judged :=
  if cellIsData x = false ∨ 3 < x.label.toNat then ⟨nullCell, true, false⟩
  else match c.mapped x.label with
    | none => ⟨nullCell, false, false⟩
    | some l =>
      ⟨{ x with label := l, unitTime := rebased x c.base origin }, false, x.unitStart && !(stampValid x.unitTime)⟩

/-- The entries of a completion: tag, clip-end mark, and on channel 8 the pass mark on the first (R123, R125). -/
def Channel.newEntries (c : Channel) (n : Fin 9) (first clipCells : Nat) (js : List Judged) : List QueueEntry :=
  js.mapIdx fun i j =>
    { cell := j.cell
      tag := c.listIndex
      clipEnd := decide (first + i + 1 = clipCells)
      passMark := decide (n = 8) && c.passMarkDue && decide (i = 0) }

/-- R125: the fetch pointer after a completion of `m` cells of a clip. -/
def Channel.advance (c : Channel) (n : Fin 9) (m clipCells duration : Nat) : Channel :=
  let at' := c.cellIndex + m
  if at' = clipCells then
    if n = 8 then { c with cellIndex := 0, base := addTicks c.base duration, passMarkDue := true }
    else if c.listIndex + 1 < c.clips.length then
      { c with listIndex := c.listIndex + 1, cellIndex := 0, base := addTicks c.base duration }
    else { c with cellIndex := at', exhausted := true }
  else { c with cellIndex := at' }

/-- R123: a current fetch delivers its cells. R123 has fetch in flight become no, and does not name the in-flight count;
it becomes 0 here, as R121, R127 and R129 have it, and a READ of Playout Status shows it. DESIGN CHOICE (log 35). -/
def Channel.delivered (c : Channel) (n : Fin 9) (r : FetchRead) (e : ClipEntry) (cells : List Cell) : Channel :=
  let js := cells.map (c.judge e.origin)
  let c1 : Channel :=
    { c with
      queue := c.queue ++ c.newEntries n r.first e.cells js
      malformed := c.malformed + BitVec.ofNat 32 (js.countP Judged.malformed)
      invalidTimes := c.invalidTimes + BitVec.ofNat 32 (js.countP Judged.invalidTime)
      inFlight := false
      inFlightCount := 0
      passMarkDue := false }
  c1.advance n r.count e.cells e.duration

/-- The images a read hands over, "in cell order, as they stand in the pages" (R111). -/
def State.readCells (s : State) (r : FetchRead) : List Cell :=
  (List.range r.count).map fun i => s.clipCell r.basePage (r.first + i)

/-- A completion is stale: another generation, or made stale by a FULL reset (R126, R132). -/
def State.staleRead (s : State) (r : FetchRead) : Bool :=
  r.stale || decide (r.generation ≠ (s.channel r.channel).generation)

/-- R111 and R123 to R126: a read completes without fault. -/
def completeRead (s : State) (r : FetchRead) : State :=
  let cells := s.readCells r
  let e := s.clip r.clip
  let s1 := if e.state = .empty then s else s.setClip r.clip { e with played := true }
  if s1.staleRead r then s1
  else (s1.setChannel r.channel ((s1.channel r.channel).delivered r.channel r e cells)).fetchTest r.channel

/-- R112: a read completes with READ_ERROR, entered and counted by the Clip Store. -/
def faultRead (s : State) (r : FetchRead) : State :=
  let s1 := s.enterFault .readError .fetch r.clip r.first (some r.channel)
  { s1 with clips := { s1.clips with
    counts := { s1.clips.counts with readFaults := s1.clips.counts.readFaults + 1 } } }

/-- R127: a current READ_ERROR halts the channel's fetching. -/
def State.haltChannel (s : State) (n : Fin 9) : State :=
  s.setChannel n { s.channel n with halted := true, inFlight := false, inFlightCount := 0 }

/-! ### Depth and refill writes (R120) -/

/-- The sum of the nine depths with one replaced. -/
def State.depthSum (s : State) (n : Fin 9) (depth : Nat) : Nat :=
  ((s.channels.set n { s.channel n with depth := depth }).items.map Channel.depth).sum

/-- R120: the three tests of a depth and refill write, in order. -/
def judgeDepth (s : State) (n : Fin 9) (depth refill : Nat) : Status :=
  let c := s.channel n
  if depth % 64 ≠ 0 ∨ depth < 64 ∨ 2048 < depth ∨ depth < refill + 32 then .badField
  else if (depth ≠ c.depth ∨ refill ≠ c.refill) ∧ c.state ≠ .parked then .busy
  else if 4096 < s.depthSum n depth then .full
  else .ok

/-- An accepted depth and refill write (R120). -/
def State.setDepth (s : State) (n : Fin 9) (depth refill : Nat) : State :=
  s.setChannel n { s.channel n with depth := depth, refill := refill }

end Sys2Proof.Machine
end

