-- ==== Sys2Proof/Machine/Splice.lean ====
section
/-! DEFINITION. Machine/Splice.lean: the Splice Unit (08): cues, the Splice Schedule, block notices, fetch faults, the
substitution decision and the As-Run Log. -/

namespace Sys2Proof.Machine

/-! ### Leaving the schedule (R149, R153) -/

/-- R153: the record of an entry that leaves. -/
def State.asRunOf (s : State) (n : Fin 8) (e : ScheduleEntry) (o : BreakOutcome) (r : BreakReason) : AsRunRecord where
  number := s.splice.lastAsRun + 1
  service := n
  breakId := e.breakId
  inBlock := e.inBlock
  outBlock := e.outBlock
  outcome := o
  reason := r
  clipsCompleted := e.clipsCompleted
  cellsFromClips := e.cellsFromClips
  cellsNull := e.cellsNull
  firstCell := e.firstCell
  lastNoticed := s.splice.lastNoticed

/-- R153: a record joins the ring, newest first, the oldest leaving when it holds 64; BREAK_DONE is latched. -/
def State.writeRecord (s : State) (n : Fin 8) (e : ScheduleEntry) (o : BreakOutcome) (r : BreakReason) : State :=
  ({ s with splice := { s.splice with
      asRun := (s.asRunOf n e o r :: s.splice.asRun).take Config.asRunRoom
      lastAsRun := s.splice.lastAsRun + 1 } } : State).latch .breakDone

/-- R129, R149, step 1: the entry had been primed: it is ARMED or ACTIVE, or holds the generation of an earlier prime, as
one demoted from ARMED does (R142), replaced since by a cue (R140) or not. DEDUCED (log 25). Its leaving flushes the
channel, whatever that holds by then (log 33). -/
def ScheduleEntry.primed (e : ScheduleEntry) : Bool :=
  decide (e.state = .armed ∨ e.state = .active) || e.primeGeneration.isSome

/-- R149, steps 1 to 4: the effects of an entry's leaving outside the schedule itself. -/
def State.leaveEffects (s : State) (n : Fin 8) (e : ScheduleEntry) (o : BreakOutcome) (r : BreakReason) : State :=
  let s1 := if e.primed then s.flush (serviceChannel n) else s
  let s2 := if decide (e.state = .active) && !e.cancelRequested then s1.pendService n else s1
  (s2.releaseList e.clips).writeRecord n e o r

/-- R145: the outcome of an ACTIVE entry whose window has ended. -/
def ScheduleEntry.endOutcome (e : ScheduleEntry) : BreakOutcome × BreakReason :=
  if e.faulted then (.aborted, .clipFault)
  else if e.clipsCompleted = e.clips.length then (.complete, .none)
  else (.truncated, .none)

/-! ### Arming (R146 to R148) -/

/-- R146, step 2: within the arm lead. -/
def State.withinLead (s : State) (n : Fin 8) (e : ScheduleEntry) (b : Half) : Bool :=
  precedesEq (e.inBlock - BitVec.ofNat 16 (s.service n).armLead) b

/-- R146, step 3: every clip of the list is READY. -/
def State.clipsReady (s : State) (l : List (Fin 128)) : Bool := l.all fun k => decide ((s.clip k).state = .ready)

/-- R146, step 2. -/
def State.armStep (s : State) (n : Fin 8) (e : ScheduleEntry) (b : Half) : ScheduleEntry :=
  if decide (e.state = .pending) && s.withinLead n e b then { e with state := .arming } else e

/-- R146, steps 2 and 3, of a head that is not ACTIVE: the head and the part after them. -/
def State.armHead (s : State) (n : Fin 8) (e : ScheduleEntry) (b : Half) : ScheduleEntry × State :=
  let e1 := s.armStep n e b
  if decide (e1.state = .arming) && s.clipsReady e1.clips then
    let s1 := s.prime (serviceChannel n) e1.clips e1.labelMap e1.pt
    ({ e1 with state := .armed, primeGeneration := some (s1.channel (serviceChannel n)).generation }, s1)
  else (e1, s)

/-- R146, step 1: the window has passed. -/
def ScheduleEntry.passed (e : ScheduleEntry) (b : Half) : Bool := precedesEq e.outBlock b

/-- R148: the head tests outside a notice, against block b, down a schedule while heads leave. -/
def headTests (n : Fin 8) (b : Half) : List ScheduleEntry → State → List ScheduleEntry × State
  | [], s => ([], s)
  | e :: rest, s =>
    if e.state = .active then (e :: rest, s)
    else if e.passed b then headTests n b rest (s.leaveEffects n e .missed .blocksMissing)
    else
      let (e1, s1) := s.armHead n e b
      (e1 :: rest, s1)

/-- R148: the head tests of one service against the last block noticed; with none noticed they change nothing. -/
def State.headTest (s : State) (n : Fin 8) : State :=
  match s.splice.lastNoticed with
  | none => s
  | some b =>
    let (l, s1) := headTests n b (s.schedule n) s
    s1.setSchedule n l

/-! ### Block notices (R145 to R147) -/

/-- R145 to R147: one service's schedule at a notice, from its head and on while the head changes. -/
def noticeSchedule (n : Fin 8) (b : Half) : List ScheduleEntry → State → List ScheduleEntry × State
  | [], s => ([], s)
  | e :: rest, s =>
    if e.state = .active then
      if e.cancelRequested then noticeSchedule n b rest (s.leaveEffects n e .cancelled .none)
      else if windowHolds e.inBlock e.outBlock b then (e :: rest, s)
      else noticeSchedule n b rest (s.leaveEffects n e e.endOutcome.1 e.endOutcome.2)
    else if e.passed b then noticeSchedule n b rest (s.leaveEffects n e .missed .blocksMissing)
    else
      let (e1, s1) := s.armHead n e b
      if windowHolds e1.inBlock e1.outBlock b then
        if e1.state = .armed then ({ e1 with state := .active } :: rest, s1)
        else if e1.state = .arming then noticeSchedule n b rest (s1.leaveEffects n e1 .missed .clipNotReady)
        else (e1 :: rest, s1)
      else (e1 :: rest, s1)

/-- One service at a notice. -/
def State.noticeService (s : State) (b : Half) (n : Fin 8) : State :=
  let (l, s1) := noticeSchedule n b (s.schedule n) s
  s1.setSchedule n l

/-- The services in order. -/
def services : List (Fin 8) := [0, 1, 2, 3, 4, 5, 6, 7]

/-- R145: the Splice Unit takes a block notice. -/
def State.spliceNotice (s : State) (b : Half) : State :=
  services.foldl (fun s n => s.noticeService b n) { s with splice := { s.splice with lastNoticed := some b } }

/-! ### Fetch faults (R150) -/

/-- R150: a fetch fault on a service's channel, with the generation of the fetch. -/
def State.spliceFault (s : State) (n : Fin 8) (g : Word) : State :=
  match s.schedule n with
  | [] => s
  | e :: rest =>
    if e.primeGeneration ≠ some g then s
    else if e.state = .armed then
      ((s.leaveEffects n e .missed .clipFault).setSchedule n rest).headTest n
    else if e.state = .active then s.setSchedule n ({ e with faulted := true } :: rest)
    else s

/-! ### The substitution decision (R151, R152) -/

/-- R151: the head answers substitute for a slot of block b. -/
def ScheduleEntry.substitutes (e : ScheduleEntry) (b : Half) : Bool :=
  decide (e.state = .active) && windowHolds e.inBlock e.outBlock b && !e.cancelRequested

/-- R152: the entry's counts at a substitute answer. -/
def ScheduleEntry.counted (e : ScheduleEntry) (t : Taken) (due : Stamp) : ScheduleEntry :=
  { e with
    cellsFromClips := if cellIsData t.cell then e.cellsFromClips + 1 else e.cellsFromClips
    cellsNull := if cellIsData t.cell then e.cellsNull else e.cellsNull + 1
    clipsCompleted := if t.clipEnd then e.clipsCompleted + 1 else e.clipsCompleted
    firstCell := match e.firstCell with | some x => some x | none => some due }

/-- R151: what fills a substituted slot: the head of the channel, or, when faulted, a null cell that no take gives. -/
def State.substitute (s : State) (n : Fin 8) (e : ScheduleEntry) : Taken × State :=
  if e.faulted then (⟨nullCell, none, false, false, false⟩, s) else s.take (serviceChannel n)

/-- R151: the Emitter offers a DATA cell of a label of service n. The answer is none for pass. -/
def State.offerSlot (s : State) (n : Fin 8) (b : Half) (due : Stamp) : Option Cell × State :=
  match s.schedule n with
  | [] => (none, s)
  | e :: rest =>
    if e.substitutes b then
      let (t, s1) := s.substitute n e
      (some t.cell, s1.setSchedule n (e.counted t due :: rest))
    else (none, s)

/-! ### Cancelling (R143) -/

/-- An entry is removed from the middle of a schedule by its break id. -/
def dropBreak (id : Half) (l : List ScheduleEntry) : List ScheduleEntry := l.filter fun e => decide (e.breakId ≠ id)

/-- The entry of a schedule with a break id. -/
def findBreak (id : Half) (l : List ScheduleEntry) : Option ScheduleEntry := l.find? fun e => decide (e.breakId = id)

/-- The head of a schedule has a break id. -/
def headIs (id : Half) (l : List ScheduleEntry) : Bool := decide (l.head?.map ScheduleEntry.breakId = some id)

/-- R143 for an entry that was found. -/
def State.cancelEntry (s : State) (n : Fin 8) (e : ScheduleEntry) : State :=
  if e.state = .active then
    if e.cancelRequested then s
    else
      (s.setSchedule n ((s.schedule n).map fun x =>
        if x.breakId = e.breakId then { x with cancelRequested := true } else x)).pendService n
  else
    let s1 := (s.leaveEffects n e .cancelled .none).setSchedule n (dropBreak e.breakId (s.schedule n))
    if headIs e.breakId (s.schedule n) then s1.headTest n else s1

/-- R143: the break of a service with an id, cancelled when there is one. -/
def State.cancelBreak? (s : State) (n : Fin 8) (id : Half) : Option State :=
  (findBreak id (s.schedule n)).map fun e => s.cancelEntry n e

/-- The CANCEL_BREAK command (R143). -/
def cancelCommand (s : State) (service : Byte) (id : Half) : Status × State :=
  match index? 8 service.toNat with
  | none => (.badField, s)
  | some n =>
    match s.cancelBreak? n id with
    | some s1 => (.ok, s1)
    | none => (.state, s)

/-! ### Taking a cue (R136 to R142) -/

/-- R141: a refused cue. -/
def State.refuseCue (s : State) (n : Fin 8) (r : CueRefusal) (id : Half) : State :=
  (s.setService n { s.service n with refused := (s.service n).refused + 1, lastRefusal := some (r, id) }).latch
    .cueRefused

/-- A cue that is ignored (R137, R139, R143). -/
def State.ignoreCue (s : State) (n : Fin 8) : State :=
  s.setService n { s.service n with ignored := (s.service n).ignored + 1 }

/-- R137: the valid Break Map entry of a service and break id. -/
def State.lookupBreak (s : State) (n : Fin 8) (id : Half) : Option BreakEntry :=
  s.splice.breakMap.items.find? fun e => e.valid && decide (e.service = n) && decide (e.breakId = id)

/-- R140, step 4: the entry a cue makes, or, with `old`, what it makes of the entry it replaces. That is the same entry
still, from acceptance to leaving, and it keeps its prime generation, which R140's list of what it takes does not name.
DEDUCED (log 25). -/
def newEntry (c : Cue) (m : BreakEntry) (old : Option ScheduleEntry) : ScheduleEntry where
  breakId := c.breakId
  inBlock := c.inBlock
  outBlock := c.outBlock
  pt := c.pt
  clips := m.clips
  labelMap := m.labelMap
  state := .pending
  primeGeneration := old.bind ScheduleEntry.primeGeneration
  faulted := false
  cancelRequested := false
  cellsFromClips := 0
  cellsNull := 0
  clipsCompleted := 0
  firstCell := none

/-- R144: in-block order, an ACTIVE head staying the head (R142, log 20). -/
def insertEntry (e : ScheduleEntry) : List ScheduleEntry → List ScheduleEntry
  | [] => [e]
  | x :: xs => if x.state ≠ .active ∧ precedes e.inBlock x.inBlock = true then e :: x :: xs else x :: insertEntry e xs

/-- R142: an entry that is no longer the head becomes PENDING. An ACTIVE one is never displaced. -/
def ScheduleEntry.demoted (e : ScheduleEntry) : ScheduleEntry :=
  if e.state = .active then e else { e with state := .pending }

/-- R142: the entries behind the head are PENDING. -/
def demoteRest : List ScheduleEntry → List ScheduleEntry
  | [] => []
  | e :: rest => e :: rest.map ScheduleEntry.demoted

/-- R142: the old head was ARMED and is no longer the head. -/
def displacesArmed (old new : List ScheduleEntry) : Bool :=
  match old.head? with
  | some h => decide (h.state = .armed) && decide (new.head?.map ScheduleEntry.breakId ≠ some h.breakId)
  | none => false

/-- R140, step 4: the entry takes its place among the others; the head is demoted if displaced (R142); the cue is
counted and the head tests are made (R148). -/
def State.placeEntry (s : State) (n : Fin 8) (e : ScheduleEntry) (others : List ScheduleEntry) : State :=
  let l := demoteRest (insertEntry e others)
  let s1 := if displacesArmed (s.schedule n) l then s.flush (serviceChannel n) else s
  let s2 := s1.setSchedule n l
  (s2.setService n { s2.service n with accepted := (s2.service n).accepted + 1 }).headTest n

/-- R140: claim, overlap, room and acceptance, for a new break or, with `old`, a replacement. -/
def State.admitCue (s : State) (n : Fin 8) (c : Cue) (m : BreakEntry) (old : Option ScheduleEntry) : State :=
  let others := match old with
    | some _ => dropBreak c.breakId (s.schedule n)
    | none => s.schedule n
  match s.claim? m.clips with
  | none => s.refuseCue n .clipAbsent c.breakId
  | some s1 =>
    if others.any fun x => windowsOverlap c.inBlock c.outBlock x.inBlock x.outBlock then
      (s1.releaseList m.clips).refuseCue n .overlap c.breakId
    else if decide (old = none) && decide (4 ≤ others.length) then
      (s1.releaseList m.clips).refuseCue n .full c.breakId
    else
      match old with
      | some o => (s1.releaseList o.clips).placeEntry n (newEntry c m old) others
      | none => s1.placeEntry n (newEntry c m old) others

/-- R139: the cue says what the entry already holds. -/
def sameBreak (e : ScheduleEntry) (c : Cue) (m : BreakEntry) : Bool :=
  decide (e.inBlock = c.inBlock) && decide (e.outBlock = c.outBlock) && decide (e.pt = c.pt) &&
  decide (e.clips = m.clips) && decide (e.labelMap = m.labelMap)

/-- R138, test 3: the last block noticed is present and does not precede the in-block. -/
def State.cueLate (s : State) (c : Cue) : Bool :=
  match s.splice.lastNoticed with
  | some b => !(precedes b c.inBlock)
  | none => false

/-- A SCHEDULE cue with its resolved map entry (R138, R139). -/
def State.judgeCue (s : State) (n : Fin 8) (c : Cue) (m : BreakEntry) : State :=
  if stampValid c.pt = false then s.refuseCue n .badTime c.breakId
  else if windowLength c.inBlock c.outBlock < 1 ∨ 4096 < windowLength c.inBlock c.outBlock then
    s.refuseCue n .badRange c.breakId
  else if s.cueLate c then s.refuseCue n .late c.breakId
  else match findBreak c.breakId (s.schedule n) with
    | none => s.admitCue n c m none
    | some e =>
      if sameBreak e c m then s.ignoreCue n
      else if e.state = .pending ∨ e.state = .arming then s.admitCue n c m (some e)
      else s.refuseCue n .state c.breakId

/-- R137: a SCHEDULE cue for service n. -/
def State.scheduleCue (s : State) (n : Fin 8) (c : Cue) : State :=
  if (s.service n).enable then
    match s.lookupBreak n c.breakId with
    | some m => s.judgeCue n c m
    | none => s.ignoreCue n
  else s.ignoreCue n

/-- R143: a CANCEL cue for service n. -/
def State.cancelCue (s : State) (n : Fin 8) (c : Cue) : State :=
  match s.cancelBreak? n c.breakId with
  | some s1 => s1
  | none => s.ignoreCue n

/-- R136: a bad cue, or a CUE cell dropped at a full intake. -/
def State.badCue (s : State) : State :=
  ({ s with splice := { s.splice with badCues := s.splice.badCues + 1 } } : State).latch .cueRefused

/-- R136: one cue taken whole. -/
def State.takeCue (s : State) (p : Payload) : State :=
  let c := readCue p
  match index? 8 c.service.toNat with
  | none => s.badCue
  | some n =>
    if c.action = 1 then s.scheduleCue n c
    else if c.action = 2 then s.cancelCue n c
    else s.badCue

/-- CUE_TAKEN (R136): the Splice Unit takes the oldest cue of the cue intake; an empty intake gives it none. -/
def execCueTaken (s : State) : Host.Outcome State Fault Refusal :=
  match s.splice.intake with
  | [] => .next s
  | p :: rest => .next (({ s with splice := { s.splice with intake := rest } } : State).takeCue p)

end Sys2Proof.Machine
end

