-- ==== Sys2Proof/Machine/Emitter.lean ====
section
/-! DEFINITION. Machine/Emitter.lean: the Emitter (05): mute reasons, starts, discards and skips, cell times, the
classification of a cell slot, and fallback. -/

namespace Sys2Proof.Machine

/-! ### Small changes -/

/-- The Emitter's counts changed. -/
def State.countEmitter (s : State) (k : EmitterCounts → EmitterCounts) : State :=
  { s with emitter := { s.emitter with counts := k s.emitter.counts } }

/-- Cells of a started block that will not be sent (R95). -/
def State.addUnsent (s : State) (n : Nat) : State :=
  s.countEmitter fun k => { k with unsent := k.unsent + BitVec.ofNat 32 n }

/-- The Emitter is in IDLE with the fallback timer at 0 (R77, R87). -/
def State.toIdle (s : State) : State := { s with emitter := { s.emitter with state := .idle, timer := 0 } }

/-- A null cell leaves (R72). -/
def State.sendNull (s : State) : State := s.send nullCell

/-- R90: what every exit from FALLBACK but a TRAFFIC reset asks of the neighbours. -/
def State.exitFallback (s : State) : State := (s.flush 8).pendMap s.emitter.fallbackMap

/-- R71, R76, R77: the block on air leaves the air. The cells after the cell number are not sent (log 12). -/
def State.cutBlock (s : State) : State :=
  match s.emitter.current with
  | some b =>
    let s1 := (s.freeSlot b.slot).addUnsent (b.count - (s.emitter.phase.cell + 1))
    { s1 with emitter := { s1.emitter with current := none } }
  | none => s

/-! ### Mute reasons (R69 to R71) -/

/-- R69: the mute line toward the exciter, asserted in MUTED and released in every other state. -/
def State.muteLine (s : State) : Bool := decide (s.emitter.state = .muted)

/-- The mute reason set is not empty. -/
def MuteReasons.held (r : MuteReasons) : Bool := r.time || r.operator

/-- R71: the state the Emitter is in is left for MUTED. -/
def State.leaveForMuted (s : State) : State :=
  match s.emitter.state with
  | .block => s.cutBlock
  | .fallback => s.exitFallback
  | .idle => s
  | .muted => s

/-- R70, R71: entry into MUTED. -/
def State.enterMuted (s : State) : State :=
  let s1 := s.leaveForMuted
  ({ s1 with emitter := { s1.emitter with state := .muted } } : State).latch .mute

/-- R70: the mute reasons become a set; a reason that joins an empty set mutes, and a set that empties unmutes. -/
def State.setReasons (s : State) (r : MuteReasons) : State :=
  let s1 : State := { s with emitter := { s.emitter with reasons := r } }
  if s.emitter.reasons.held = false ∧ r.held = true then s1.enterMuted
  else if s.emitter.reasons.held = true ∧ r.held = false then s1.toIdle.latch .mute
  else s1

/-- R31, R70: the TIME reason given or withdrawn. -/
def State.setTimeReason (s : State) (b : Bool) : State := s.setReasons { s.emitter.reasons with time := b }

/-- R70, R179: the OPERATOR reason given or withdrawn. -/
def State.setOperatorReason (s : State) (b : Bool) : State := s.setReasons { s.emitter.reasons with operator := b }

/-! ### Notices and the phase reference (R14, R78) -/

/-- R78: a block notice, to the Splice Unit and then to the Counter Bank (log 4). -/
def State.notice (s : State) (b : Half) : State := (s.spliceNotice b).pulseAll .block

/-- The period that comes into force when the phase reference next moves (R13). -/
def Emitter.nextPeriod (e : Emitter) : Nat := e.pendingPeriod.getD e.period

/-- R14: the phase reference moves, and any pending period comes into force. -/
def State.movePhase (s : State) (stamp : Stamp) (k : Nat) : State :=
  { s with emitter := { s.emitter with
      phase := ⟨stamp, k⟩, period := s.emitter.nextPeriod, pendingPeriod := none } }

/-- R80: j, the largest cell number whose due time from a reached stamp has been reached. -/
def State.cellFrom (s : State) (stamp : Stamp) : Nat := lastDue s.emitter.nextPeriod (diff s.now stamp).toNat

/-! ### Classifying a cell slot (R81, R82) -/

/-- R81: a DATA cell of a label whose role is SERVICE n. -/
def State.serviceCell (s : State) (n : Fin 8) (b : CurrentBlock) (c : Cell) (due : Stamp) : State :=
  let a := s.offerSlot n b.block due
  match a.1 with
  | none => a.2.sendPassed c
  | some x => a.2.sendQueued x false

/-- R81: the cell read from the chosen copy is classified. -/
def State.classify (s : State) (b : CurrentBlock) (c : Cell) (due : Stamp) : State :=
  if cellIsData c then
    match (s.label c.label).role with
    | .drop => s.sendNull
    | .pass => s.sendPassed c
    | .service =>
      match index? 8 (s.label c.label).service.toNat with
      | some n => s.serviceCell n b c due
      | none => s.sendPassed c
  else s.sendNull

/-- R81, R82: cell `k` of the block on air leaves. A cell number past the copy's area has no memory to read, so that
read faults (log 9). -/
def State.emitBlockCell (s : State) (b : CurrentBlock) (k : Nat) (readFault : Bool) : State :=
  let s1 : State := { s with emitter := { s.emitter with current := some { b with sent := b.sent + 1 } } }
  if readFault || decide (Config.copyCells ≤ k) then
    (s1.countEmitter fun n => { n with readFaults := n.readFaults + 1 }).sendNull
  else s1.classify b (s.delayCell b.slot b.copy k) (dueTime s.emitter.phase s.emitter.period k)

/-- R89: a cell time in FALLBACK, the head of Playout Queue 8. -/
def State.fallbackCell (s : State) : State :=
  let t := s.take 8
  t.2.sendQueued t.1.cell t.1.passMark

/-! ### Starts, discards and skips (R73 to R80) -/

/-- R63: a slot leaves the Emission Queue. -/
def State.unqueue (s : State) (i : Fin 256) : State := { s with slots := { s.slots with queue := s.slots.queue.erase i } }

/-- R63: a FILLING copy of a started slot becomes BAD, keeping its cells received. -/
def Copy.stopped (c : Copy) : Copy := if c.state = .filling then { c with state := .bad } else c

/-- R63: a slot becomes EMITTING. -/
def Slot.started (sl : Slot) : Slot :=
  { sl with state := .emitting, copyA := sl.copyA.stopped, copyB := sl.copyB.stopped }

/-- R63: the Slot Table's part in a start. -/
def State.slotStarts (s : State) (i : Fin 256) : State :=
  let s1 := (s.unqueue i).withdrawCopies i
  s1.setSlot i (s1.slot i).started

/-- R75: the copy of the preferred feed if it is GOOD, the other otherwise. -/
def State.chosenCopy (s : State) (i : Fin 256) : Feed :=
  if ((s.slot i).copy s.feeds.preferred).state = .good then s.feeds.preferred else otherFeed s.feeds.preferred

/-- R75: the chosen copy's feed becomes the active feed. -/
def State.activate (s : State) (f : Feed) : State :=
  let s1 : State := { s with emitter := { s.emitter with activeFeed := some f } }
  if s.emitter.activeFeed = some (otherFeed f) then
    (s1.countEmitter fun k => { k with feedSwitches := k.feedSwitches + 1 }).latch .feedSwitch
  else s1

/-- R76, R77: the block on air is settled against a reached stamp, as an overrun or as an end; IDLE follows. -/
def State.settle (s : State) : State :=
  match s.emitter.state, s.emitter.current with
  | .block, some b =>
    if s.emitter.phase.cell + 1 < b.count then
      ((s.cutBlock.countEmitter fun k => { k with overruns := k.overruns + 1 }).latch .overrun).toIdle
    else s.cutBlock.toIdle
  | _, _ => s

/-- R79: one reached block discarded in MUTED; its null cell leaves after the last one (log 11). -/
def State.discardBlock (s : State) (i : Fin 256) : State :=
  let sl := s.slot i
  ((((s.unqueue i).freeSlot i).notice sl.block).countEmitter fun k => { k with muteDrops := k.muteDrops + 1 }).movePhase
    sl.stamp (s.cellFrom sl.stamp)

/-- R80: one reached block skipped. -/
def State.skipBlock (s : State) (i : Fin 256) : State :=
  let sl := s.slot i
  ((((s.unqueue i).freeSlot i).notice sl.block).countEmitter fun k => { k with skipped := k.skipped + 1 }).latch
    .overrun

/-- R73, step 2: a start ends fallback. -/
def State.leaveFallback (s : State) : State := if s.emitter.state = .fallback then s.exitFallback else s

/-- R73, steps 3 to 6, for a slot that has left the queue: the current block, the phase, the notice, and BLOCK. -/
def State.goOnAir (s : State) (i : Fin 256) (j : Nat) : State :=
  let sl := s.slot i
  let f := s.chosenCopy i
  let s1 := ((s.activate f).movePhase sl.stamp j).notice sl.block
  let s2 := (s1.countEmitter fun k => { k with started := k.started + 1 }).addUnsent j
  { s2 with emitter := { s2.emitter with
      state := .block, timer := 0, current := some ⟨i, sl.block, sl.count, f, 0⟩ } }

/-- R73, R80: a block starts at its cell `j`. -/
def State.startBlock (s : State) (i : Fin 256) (j : Nat) (readFault : Bool) : State :=
  let s1 := (s.slotStarts i).leaveFallback.goOnAir i j
  match s1.emitter.current with
  | some b => s1.emitBlockCell b j readFault
  | none => s1

/-- R80: the last reached block starts late, or is skipped as well. -/
def State.takeLast (s : State) (i : Fin 256) (readFault : Bool) : State :=
  let sl := s.slot i
  let j := s.cellFrom sl.stamp
  if j < sl.count then s.startBlock i j readFault
  else
    let s1 := (s.skipBlock i).movePhase sl.stamp j
    if s1.emitter.state = .fallback then s1.fallbackCell else s1.sendNull

/-- The queued blocks whose stamps have been reached, from the head (R80). -/
def State.reachedSlots (s : State) : List (Fin 256) :=
  s.slots.queue.takeWhile fun i => s.reached (s.slot i).stamp

/-- R80: reached blocks taken at one moment, in the order given: each discarded in MUTED, with one null cell after them
(log 11), or all skipped but the last. -/
def State.takeBlocks (s : State) (l : List (Fin 256)) (readFault : Bool) : State :=
  match l.getLast? with
  | none => s
  | some last =>
    if s.emitter.state = .muted then (l.foldl State.discardBlock s).sendNull
    else (l.dropLast.foldl State.skipBlock s.settle).takeLast last readFault

/-- R74, R80: the test of the head against now, and every reached block taken at this moment. -/
def State.takeReached (s : State) (readFault : Bool) : State := s.takeBlocks s.reachedSlots readFault

/-- R32: every queued block whose stamp reads as reached, in queue order. After a step back one may stand behind a head
that is not reached, its stamp 128 seconds or more ahead and so folded. -/
def State.reachedAnywhere (s : State) : List (Fin 256) := s.slots.queue.filter fun i => s.reached (s.slot i).stamp

/-- R32, R80: what a set or a step takes, every queued block that reads as reached. -/
def State.takeStepped (s : State) (readFault : Bool) : State := s.takeBlocks s.reachedAnywhere readFault

/-! ### Cell times (R14, R72, R77) -/

/-- The due time of the next cell number. -/
def State.nextDue (s : State) : Stamp := dueTime s.emitter.phase s.emitter.period (s.emitter.phase.cell + 1)

/-- R14: a cell time is found. -/
def State.cellDue (s : State) : Bool := s.reached s.nextDue

/-- R14: the cell number after the cell time found now. -/
def State.newCellNumber (s : State) : Nat :=
  lastDue s.emitter.period (dueOffset s.emitter.period (s.emitter.phase.cell + 1) + (diff s.now s.nextDue).toNat)

/-- R72, R77: a cell time in BLOCK, the cell number already advanced from `k`. -/
def State.blockCellTime (s : State) (b : CurrentBlock) (k : Nat) (readFault : Bool) : State :=
  let j := s.emitter.phase.cell
  if j < b.count then (s.addUnsent (j - (k + 1))).emitBlockCell b j readFault
  else
    let s1 := (s.freeSlot b.slot).addUnsent (b.count - (k + 1))
    (({ s1 with emitter := { s1.emitter with current := none } } : State).toIdle).sendNull

/-- R72: one cell leaves, chosen by the emitter state. -/
def State.cellTime (s : State) (readFault : Bool) : State :=
  let k := s.emitter.phase.cell
  let s1 : State := { s with emitter := { s.emitter with phase := ⟨s.emitter.phase.stamp, s.newCellNumber⟩ } }
  match s.emitter.state, s.emitter.current with
  | .block, some b => s1.blockCellTime b k readFault
  | .fallback, _ => s1.fallbackCell
  | _, _ => s1.sendNull

/-! ### Fallback (R87, R88, R91) -/

/-- R87: the three conditions. -/
def State.fallbackAllowed (s : State) : Bool :=
  s.emitter.fallbackEnable &&
  (match s.emitter.fallbackClip with
   | some n => decide ((s.clip n).state = .ready)
   | none => false) &&
  decide (s.time.state = .locked ∨ s.time.state = .holdover)

/-- R88: entry into FALLBACK. -/
def State.enterFallback (s : State) : State :=
  match s.emitter.fallbackClip with
  | none => s
  | some n =>
    let s1 := ({ s with emitter := { s.emitter with state := .fallback } } : State).latch .fallback
    (s1.countEmitter fun k => { k with fallbackEntries := k.fallbackEntries + 1 }).prime 8 [n] s.emitter.fallbackMap
      s.now

/-- R87: the test at a millisecond event at which the timer stands at the delay. -/
def State.fallbackTest (s : State) : State := if s.fallbackAllowed then s.enterFallback else s

/-- R87: a millisecond event at the Emitter. A timer above a newly written, shorter delay is lowered to it here, and shows
its old value until then. DESIGN CHOICE (log 34). -/
def State.emitterMillisecond (s : State) : State :=
  if s.emitter.state = .idle then
    let t := min (s.emitter.timer + 1) s.emitter.fallbackDelay
    let s1 : State := { s with emitter := { s.emitter with timer := t } }
    if t = s.emitter.fallbackDelay then s1.fallbackTest else s1
  else s

/-- R91: the Playout Unit reports a fetch fault on channel 8. -/
def State.fallbackFault (s : State) : State :=
  if s.emitter.state = .fallback then
    let s1 := s.exitFallback.toIdle
    ({ s1 with emitter := { s1.emitter with fallbackEnable := false } } : State).countEmitter fun k =>
      { k with fallbackFaults := k.fallbackFaults + 1 }
  else s

/-! ### The head (R74) -/

/-- The stamp of the head of the Emission Queue. -/
def State.headStamp (s : State) : Option Stamp := s.slots.queue.head?.map fun i => (s.slot i).stamp

/-- R74: the head's stamp has been reached. -/
def State.headReached (s : State) : Bool :=
  match s.headStamp with
  | some x => s.reached x
  | none => false

/-! ### Rows -/

/-- FALLBACK_TIMER_EXPIRY (R87): the millisecond event at the Emitter that finds the timer reaching the delay in IDLE.
In any other state, or with the delay not yet reached, there is none (log 1). -/
def execFallbackTimerExpiry (s : State) : Host.Outcome State Fault Refusal :=
  if s.emitter.state = .idle ∧ s.emitter.fallbackDelay ≤ s.emitter.timer + 1 then .next s.emitterMillisecond
  else .next s

/-- FALLBACK_ENTRY (R88): IDLE, the delay passed and the conditions of R87 holding (log 1 otherwise). The row enters
FALLBACK at whatever tick it comes, where R87 has tests only at millisecond events. DESIGN CHOICE (log 1). -/
def execFallbackEntry (s : State) : Host.Outcome State Fault Refusal :=
  if decide (s.emitter.state = .idle) && decide (s.emitter.fallbackDelay ≤ s.emitter.timer) && s.fallbackAllowed then
    .next s.enterFallback
  else .next s

end Sys2Proof.Machine
end

