-- ==== Sys2Proof/Machine/Feed.lean ====
section
/-! DEFINITION. Machine/Feed.lean: the two feed ports (03): judging a cell, filling a copy, TIMING cells, and silence. -/

namespace Sys2Proof.Machine

/-- A port's counts changed. -/
def State.countFeed (s : State) (f : Feed) (k : FeedCounts → FeedCounts) : State :=
  s.setPort f { s.port f with counts := k (s.port f).counts }

/-! ### The end of a copy (R35, R39) -/

/-- R35: the current copy, if any, ends and is reported BAD with the cells received it had reached. -/
def State.endCopy (s : State) (f : Feed) : State :=
  match (s.port f).current with
  | some c => (s.setPort f { s.port f with current := none }).reportBad f c (s.port f).received
  | none => s

/-- R39: the current copy, if any, ends as short. -/
def State.endShort (s : State) (f : Feed) : State :=
  match (s.port f).current with
  | some _ => (s.countFeed f fun k => { k with short := k.short + 1 }).endCopy f
  | none => s

/-! ### Block cells (R37, R38, R40) -/

/-- R37: the port after a cell is written. -/
def FeedPort.wrote (p : FeedPort) (c : Cell) : FeedPort :=
  { p with runningCheck := crcFrom p.runningCheck (cellToBytes c), received := p.received + 1 }

/-- R37, R53: the delay memory and the two records after a cell is written at index cells received. -/
def State.writeCell (s : State) (f : Feed) (r : CopyRef) (c : Cell) : State :=
  let p := s.port f
  let s1 := ({ s with delay := memWrite s.delay (delayAddress r.slot f p.received) (cellToBytes c) } : State).setPort f
    (p.wrote c)
  let sl := s1.slot r.slot
  if decide ((sl.copy f).state = .filling) then
    s1.setSlot r.slot (sl.setCopy f { sl.copy f with received := (sl.copy f).received + 1 })
  else s1

/-- R37: a complete copy is reported GOOD or BAD by its check. -/
def State.completeCopy (s : State) (f : Feed) (r : CopyRef) : State :=
  let p := s.port f
  let s1 := s.setPort f { p with current := none }
  if p.runningCheck = p.blockCheck then (s1.countFeed f fun k => { k with good := k.good + 1 }).reportGood f r
  else (s1.countFeed f fun k => { k with checkFailures := k.checkFailures + 1 }).reportBad f r p.received

/-- R40: what a faulting write leaves in the delay memory (log 8). -/
def State.faultCell (s : State) (f : Feed) (r : CopyRef) (c : Cell) : State :=
  let a := delayAddress r.slot f (s.port f).received
  { s with
    delay := memWrite s.delay a (faultedBytes s.delay s.faultCount a (cellToBytes c))
    faultCount := s.faultCount + 1 }

/-- R37, R38, R40: a block cell. A position past the copy's area has no memory, so that write faults (log 9). -/
def State.blockCell (s : State) (f : Feed) (c : Cell) (writeFault : Bool) : State :=
  match (s.port f).current with
  | none => s.countFeed f fun k => { k with stray := k.stray + 1 }
  | some r =>
    if Config.copyCells ≤ (s.port f).received then
      (s.countFeed f fun k => { k with writeFaults := k.writeFaults + 1 }).endCopy f
    else if writeFault then
      ((s.faultCell f r c).countFeed f fun k => { k with writeFaults := k.writeFaults + 1 }).endCopy f
    else
      let s1 := s.writeCell f r c
      if (s1.port f).received = (s1.port f).expected then s1.completeCopy f r else s1

/-! ### TIMING cells (R42 to R46) -/

/-- R48: a TIMING cell stands in place of a silence expiry, which was the port's next event. The second of two such
cells does too. -/
def FeedPort.forestalls (p : FeedPort) : Bool :=
  decide (p.state = .tracking) && (decide (p.silence = 1) || p.forestalled)

/-- R42: the silence value is loaded and the feed state becomes TRACKING. -/
def FeedPort.tracked (p : FeedPort) : FeedPort :=
  { p with state := .tracking, silence := p.silenceLatch, forestalled := p.forestalls }

/-- R42: a TIMING cell at the port, with FEED_BACK from LOST. -/
def State.trackFeed (s : State) (f : Feed) : State :=
  (s.setPort f (s.port f).tracked).latchIf
    (decide ((s.port f).state = .lost)) .feedBack

/-- R46: the port after an accepted offer. -/
def FeedPort.accepted (p : FeedPort) (t : Timing) : FeedPort :=
  { p with
    current := some ⟨slotOf t.block, t.block⟩
    expected := t.count.toNat
    received := 0
    blockCheck := t.check
    runningCheck := crcStart }

/-- R46: what the port does with the answer to its offer. -/
def State.takeAnswer (f : Feed) (t : Timing) (a : OfferAnswer × State) : State :=
  match a.1 with
  | .accept => a.2.setPort f ((a.2.port f).accepted t)
  | .late => a.2.countFeed f fun k => { k with late := k.late + 1 }
  | .early => a.2.countFeed f fun k => { k with early := k.early + 1 }
  | .duplicate => a.2.countFeed f fun k => { k with duplicate := k.duplicate + 1 }
  | .divergence => a.2.countFeed f fun k => { k with divergence := k.divergence + 1 }
  | .collision => a.2.countFeed f fun k => { k with collision := k.collision + 1 }

/-- R46: the offer of a new copy. -/
def State.makeOffer (s : State) (f : Feed) (t : Timing) : State :=
  State.takeAnswer f t (s.offer f t.block t.stamp t.count.toNat)

/-- R45: the time gate is closed. -/
def State.gateClosed (s : State) : Bool := decide (s.time.state = .unset ∨ s.time.state = .acquiring)

/-- R43 to R46: the tests of a TIMING cell's fields. -/
def State.testTiming (s : State) (f : Feed) (t : Timing) : State :=
  if t.networkId ≠ s.feeds.networkId then
    (s.countFeed f fun k => { k with foreign := k.foreign + 1 }).latch .network
  else if t.count.toNat < 1 ∨ 512 < t.count.toNat ∨ stampValid t.stamp = false then
    s.countFeed f fun k => { k with badTiming := k.badTiming + 1 }
  else if s.gateClosed then s.countFeed f fun k => { k with notTimed := k.notTimed + 1 }
  else s.makeOffer f t

/-- R39, R42 to R46: a TIMING cell. -/
def State.timingCell (s : State) (f : Feed) (c : Cell) : State :=
  ((s.endShort f).trackFeed f).testTiming f (readTiming c.payload)

/-! ### Judging a cell (R34 to R36) -/

/-- R34: an undamaged cell. -/
def State.imageArrives (s : State) (f : Feed) (c : Cell) (writeFault : Bool) : State :=
  if cellMalformed c then (s.countFeed f fun k => { k with malformed := k.malformed + 1 }).endCopy f
  else if c.kind = kindTiming then s.timingCell f c
  else s.blockCell f c writeFault

/-- R34, R35: any arrival. -/
def State.cellArrives (s : State) (f : Feed) (a : Arrival) (writeFault : Bool) : State :=
  match a with
  | .damaged => (s.countFeed f fun k => { k with damaged := k.damaged + 1 }).endCopy f
  | .image c => s.imageArrives f c writeFault

/-- FEED_CELL_ARRIVES (R34). -/
def execFeedCellArrives (f : Feed) (a : Arrival) (writeFault : Bool) (s : State) :
    Host.Outcome State Fault Refusal :=
  .next (s.cellArrives f a writeFault)

/-! ### Silence (R47) -/

/-- R47: the silence expiry. -/
def State.silenceExpires (s : State) (f : Feed) : State :=
  ((s.setPort f { s.port f with state := .lost, silence := 0 }).latch (lostEvent f)).endShort f

/-- R48: the note of `FeedPort.forestalls` dropped. -/
def FeedPort.later (p : FeedPort) : FeedPort := { p with forestalled := false }

/-- R47: a millisecond event at a port decreases the value by one. R48: the one that would have been the silence expiry,
with a TIMING cell taken before it at the same moment, leaves the value at the latch. Two rows are at the same moment when
they are at the same tick (R10): a count that moves drops the note of the cell (`State.passTo`, log 32). -/
def State.feedMillisecond (s : State) (f : Feed) : State :=
  if (s.port f).state = .tracking then
    if (s.port f).forestalled = true then s.setPort f (s.port f).later
    else if (s.port f).silence = 1 then s.silenceExpires f
    else s.setPort f { s.port f with silence := (s.port f).silence - 1 }
  else s

/-- R10, R48: the tick count has moved, so that a TIMING cell taken before stands at another moment than the next
millisecond event (log 32). -/
def State.laterPorts (s : State) : State := { s with portA := s.portA.later, portB := s.portB.later }

/-- SILENCE_EXPIRY (R47): the millisecond event that takes a TRACKING port's silence value from 1 to 0, at that port. A
port that is not TRACKING, or whose value is not 1, has no expiry (log 1). -/
def execSilenceExpiry (f : Feed) (s : State) : Host.Outcome State Fault Refusal :=
  if (s.port f).state = .tracking ∧ (s.port f).silence = 1 then .next (s.silenceExpires f) else .next s

end Sys2Proof.Machine
end

