-- ==== Sys2Proof/Machine/Reports.lean ====
section
/-! DEFINITION. Machine/Reports.lean: the Report Queue, the layout of a REPORT cell, the EVENT report of a second
boundary, and REPORT_SENT (10, R174, R182, R183, R189). -/

namespace Sys2Proof.Machine

/-- R183: a report joins the tail, with the dropped flag it carries away, or is dropped. -/
def Engine.queueReport (g : Engine) (r : Report) : Engine :=
  if g.reports.length < Config.reportRoom then
    { g with
      reports := g.reports ++ [{ r with dropped := g.droppedFlag }]
      droppedFlag := false
      counts := { g.counts with queued := g.counts.queued + 1 } }
  else
    { g with
      droppedFlag := true
      counts := { g.counts with dropped := g.counts.dropped + 1 } }

/-- A report is queued (R183). -/
def State.queueReport (s : State) (r : Report) : State := { s with engine := s.engine.queueReport r }

/-- An event set as a 32-bit field, bits 24-31 spare (R187). -/
def eventSetBytes (e : BitVec 24) : List Byte := be32 (e.setWidth 32)

/-- The EVENT report of R182 and R189. -/
def Engine.eventReport (g : Engine) (now : Stamp) : Report where
  siteId := g.siteId
  kind := .event
  dropped := false
  source := .intake
  tag := 0
  code := 0
  status := .ok
  part := 0
  parts := 0
  data := eventSetBytes g.latched ++ eventSetBytes g.fresh ++ be32 now

/-- R182 on the engine: a new set that is not empty is reported and then emptied, whether or not the report joins. -/
def Engine.secondBoundary (g : Engine) (now : Stamp) : Engine :=
  if g.fresh = 0 then g
  else
    { ({ g with counts := { g.counts with events := g.counts.events + 1 } } : Engine).queueReport (g.eventReport now) with
      fresh := 0 }

/-- The second-boundary event reaches the Management Engine (R182). -/
def State.engineSecond (s : State) : State := { s with engine := s.engine.secondBoundary s.now }

/-- The payload bytes of a report (R189): 10-11 the data length, 12-239 the data, zeros after it. -/
def reportBytes (r : Report) : List Byte :=
  be16 (r.siteId.setWidth 16)
    ++ [match r.kind with | .reply => 1 | .event => 2,
        flagBit 7 r.dropped ||| flagBit 6 (decide (r.source = .runner))]
    ++ be16 r.tag ++ [r.code, r.status.code,
        BitVec.ofNat 4 r.part ++ BitVec.ofNat 4 r.parts, 0]
    ++ nat16 r.data.length ++ r.data

/-- R189: the header of a null cell except for the kind. -/
def reportCell (r : Report) : Cell :=
  { nullCell with kind := kindReport, payload := Table.ofList 240 0 (reportBytes r) }

/-- REPORT_SENT (R183): the link takes the head of the queue and sends it whole. -/
def sendReport (s : State) : State :=
  match s.engine.reports with
  | [] => s
  | r :: rest =>
    { s with
      engine := { s.engine with reports := rest }
      out := { s.out with report := some (reportCell r), reports := s.out.reports + 1 } }

/-- REPORT_SENT (R183). -/
def execReportSent (s : State) : Host.Outcome State Fault Refusal := .next (sendReport s)

end Sys2Proof.Machine
end

