-- ==== Sys2Proof/Machine/Clock.lean ====
section
/-! DEFINITION. Machine/Clock.lean: the Site Time Unit (02): the time states, counting with the mark window, the
millisecond and second-boundary events with their work, second marks, and the reference monitor. -/

namespace Sys2Proof.Machine

/-- The Site Time Unit's fields changed. -/
def State.withTime (s : State) (t : SiteTime) : State := { s with time := t }

/-! ### The time states (R26 to R31) -/

/-- R31: the time states in which the TIME reason is given. -/
def TimeState.mutes : TimeState → Bool
  | .unset => true
  | .acquiring => true
  | .locked => false
  | .holdover => false
  | .freeRun => true

/-- R31: a change of time state latches TIME_STATE and gives or withdraws the TIME reason. -/
def State.changeState (s : State) (x : TimeState) : State :=
  if s.time.state = x then s
  else ((s.withTime { s.time with state := x }).latch .timeState).setTimeReason x.mutes

/-- Entry into ACQUIRING at a set, a step or a good mark in FREE-RUN (R26, R28 to R30). -/
def State.enterAcquiring (s : State) : State :=
  (s.withTime { s.time with goodRun := 1, outlierRun := 0, missedRun := 0 }).changeState .acquiring

/-- Entry into LOCKED (R27, R29). -/
def State.enterLocked (s : State) : State :=
  (s.withTime { s.time with outlierRun := 0, missedRun := 0 }).changeState .locked

/-- Entry into HOLDOVER (R19, R28). -/
def State.enterHoldover (s : State) : State := (s.withTime { s.time with holdover := 0 }).changeState .holdover

/-! ### Second boundaries and milliseconds (R17, R18, R20, R29) -/

/-- R20: at a second boundary the reference returns when its edges are back. -/
def State.returnReference (s : State) : State :=
  if s.time.source = .localOsc ∧ s.pins.refEdges = true then
    (s.withTime { s.time with source := .reference }).latch .refClock
  else s

/-- R29: the holdover count at a second boundary, and FREE-RUN at the limit. -/
def State.countHoldover (s : State) : State :=
  if s.time.state = .holdover then
    let s1 := s.withTime { s.time with holdover := s.time.holdover + 1 }
    if s.time.holdoverLimit ≤ s.time.holdover + 1 then s1.changeState .freeRun else s1
  else s

/-- R17: the unit's own second-boundary work. -/
def State.ownSecond (s : State) : State := s.returnReference.countHoldover

/-- R17: the second-boundary event at the Counter Bank and the Management Engine (log 4). -/
def State.neighbourSecond (s : State) : State := (s.pulseAll .second).engineSecond

/-- R18: the millisecond event at the feed ports, the Slot Table, the Emitter and the Counter Bank (log 4). -/
def State.neighbourMillisecond (s : State) : State :=
  ((((s.feedMillisecond .A).feedMillisecond .B).lossTests.emitterMillisecond).pulseAll .millisecond).alarmTest

/-- R17: the tick count wraps. -/
def SiteTime.wrapped (t : SiteTime) : SiteTime := { t with ticks := 0, seconds := t.seconds + 1 }

/-- R18: the millisecond event of the present tick is no longer due (log 3). -/
def State.takeEvent (s : State) : State := { s with eventDue := false }

/-- R17, R18: the events of tick 0, where they are due. R158 has the second-boundary event and the millisecond event as two
events, and the table has a row for each; here one row issues both, the second-boundary event first. DESIGN CHOICE
(logs 4, 37). -/
def State.boundary (s : State) : State := s.takeEvent.ownSecond.neighbourSecond.neighbourMillisecond

/-- R18: the millisecond event of the present tick. At tick 0 it comes with the second-boundary event (log 37). -/
def State.issueEvent (s : State) : State :=
  if s.time.ticks.val = 0 then s.boundary else s.takeEvent.neighbourMillisecond

/-- R18: an event that is still due at the present tick is issued before anything takes the clock from there (log 3). -/
def State.settleEvent (s : State) : State := if s.eventDue = true then s.issueEvent else s

/-! ### Counting, and the mark window (R17, R23) -/

/-- The tick count moved up to a value of the present second, when that lies ahead (log 3). A TIMING cell taken before
stands at another tick (R10, R48), and the millisecond event of a multiple of 10,000 is due there (R18). -/
def State.passTo (s : State) (t : Nat) : State :=
  if h : s.time.ticks.val < t ∧ t < 10000000 then
    { s.laterPorts with
      time := { s.time with ticks := ⟨t, h.2⟩ }
      eventDue := decide (t % Config.ticksPerMs = 0) }
  else s

/-- R23: the tick count at which the window opens. -/
def SiteTime.windowOpens (t : SiteTime) : Nat := Config.ticksPerSecond - t.window

/-- R27, R28: a missed mark acts on the time state. -/
def State.missMark (s : State) : State :=
  match s.time.state with
  | .acquiring => s.withTime { s.time with goodRun := 0 }
  | .locked =>
    let s1 := s.withTime { s.time with missedRun := s.time.missedRun + 1 }
    if 2 ≤ s.time.missedRun + 1 then s1.enterHoldover else s1
  | .unset | .holdover | .freeRun => s

/-- R23: a count up to `t` that reaches W + 1 with mark seen no takes the missed mark there. -/
def State.missTest (s : State) (t : Nat) : State :=
  if s.time.ticks.val < s.time.window + 1 ∧ s.time.window + 1 ≤ t ∧ s.time.markSeen = false then
    (s.passTo (s.time.window + 1)).missMark
  else s

/-- R23: a count up to `t` that reaches 10,000,000 − W clears mark seen there. -/
def State.openTest (s : State) (t : Nat) : State :=
  if s.time.ticks.val < s.time.windowOpens ∧ s.time.windowOpens ≤ t then
    (s.passTo s.time.windowOpens).withTime { (s.passTo s.time.windowOpens).time with markSeen := false }
  else s

/-- The next multiple of 10,000 above the tick count. -/
def SiteTime.nextMillisecond (t : SiteTime) : Nat := (t.ticks.val / Config.ticksPerMs + 1) * Config.ticksPerMs

/-- R18: the multiples of 10,000 that lie between the tick count and `t`, at most the number given, reached one after the
other by counting, each with its millisecond event. -/
def State.passMultiples (t : Nat) : Nat → State → State
  | 0, s => s
  | n + 1, s =>
    if s.time.nextMillisecond < t then State.passMultiples t n (s.passTo s.time.nextMillisecond).issueEvent else s

/-- The part counted up to a tick of the present second, when that lies ahead, with what counting does on the way: the
event still due at the present tick and those of the multiples of 10,000 are issued (R17, R18), and the mark window's two
places taken (R23). So neither place is left to the order of the commands given at it (log 3). -/
def State.countTo (s : State) (t : Nat) : State :=
  if s.time.ticks.val < t ∧ t < Config.ticksPerSecond then
    ((State.passMultiples t Config.msPerSecond (s.settleEvent.missTest t)).openTest t).passTo t
  else s

/-- The part counted up to a stamp of the present second, when that lies ahead (log 3). -/
def State.countToStamp (s : State) (x : Stamp) : State :=
  if diff s.now x < 0 then s.countTo (s.time.ticks.val + (diff x s.now).toNat) else s

/-- The part counted up to the last tick of the present second. -/
def State.countOut (s : State) : State := s.countTo (Config.ticksPerSecond - 1)

/-- R23: a mark about to move the clock notes whether it stands where its window opens (log 3). -/
def State.noteOpening (s : State) : State :=
  { s with openingTaken := decide (s.time.ticks.val = s.time.windowOpens) }

/-- The note of `State.noteOpening` dropped. -/
def State.dropOpening (s : State) : State := { s with openingTaken := false }

/-- MARK_WINDOW_OPEN (R23). A count already at the place or past it does not reach it by counting in this second
(R33). At tick 0, where a mark that stood at the place has just taken the clock, the window is open already (log 3). -/
def execMarkWindowOpen (s : State) : Host.Outcome State Fault Refusal :=
  if s.openingTaken = true ∧ s.time.ticks.val = 0 then .next s else .next (s.countTo s.time.windowOpens)

/-- MISSED_MARK (R23): the count reaches W + 1 with mark seen no. Otherwise no mark is missed (log 1). -/
def execMissedMark (s : State) : Host.Outcome State Fault Refusal :=
  if s.time.markSeen = false then .next (s.countTo (s.time.window + 1)) else .next s

/-! ### The rows of a second and a millisecond (R17, R18, R29) -/

/-- R17: the count of the last tick of a second: the wrap alone, with the events of tick 0 due. -/
def State.wrapCount (s : State) : State :=
  { s.laterPorts.dropOpening with time := s.time.wrapped, eventDue := true }

/-- SECOND_BOUNDARY (R17). Where the count stands at tick 0 with its events due, they are issued there. Otherwise the
present second is counted out with the events on the way (R18), and the whole wrap is done, the millisecond event of
tick 0 with it. Given after a MILLISECOND_EVENT that did the wrap, it counts a further second out. DESIGN CHOICE
(logs 3, 37). -/
def execSecondBoundary (s : State) : Host.Outcome State Fault Refusal :=
  if s.eventDue = true ∧ s.time.ticks.val = 0 then .next s.boundary
  else .next s.settleEvent.countOut.wrapCount.boundary

/-- R17, R18: the part counted up to its next multiple of 10,000. The one at 10,000,000 is tick 0 of the next second. -/
def State.countMillisecond (s : State) : State :=
  if s.time.nextMillisecond < Config.ticksPerSecond then s.countTo s.time.nextMillisecond else s.countOut.wrapCount

/-- MILLISECOND_EVENT (R18): the event that is due at the present tick, or else the count reaches its next multiple of
10,000 and the event of that tick is issued. At tick 0 the row does the whole wrap, as SECOND_BOUNDARY does: one row is
given for one wrap, not both. DESIGN CHOICE (log 37). -/
def execMillisecondEvent (s : State) : Host.Outcome State Fault Refusal :=
  if s.eventDue = true then .next s.issueEvent else .next s.countMillisecond.issueEvent

/-- HOLDOVER_EXPIRY (R29): of the unit's own work at a second boundary, the holdover count that reaches the limit and what
follows from it. R17 has the return of the reference (R20) at the boundary too; the row leaves that to SECOND_BOUNDARY.
DESIGN CHOICE (log 1). In another state, or short of the limit, there is none (log 1). -/
def execHoldoverExpiry (s : State) : Host.Outcome State Fault Refusal :=
  if s.time.state = .holdover ∧ s.time.holdoverLimit ≤ s.time.holdover + 1 then .next s.countHoldover else .next s

/-! ### Second marks (R21 to R30) -/

/-- R21: the phase error of a mark. -/
def SiteTime.phaseError (t : SiteTime) : Int :=
  if t.ticks.val < 5000000 then (t.ticks.val : Int) else (t.ticks.val : Int) - 10000000

/-- The seconds number of the second that begins at a mark with phase error e, by the site's own count. -/
def SiteTime.markSecond (t : SiteTime) : Word := if t.phaseError < 0 then t.seconds + 1 else t.seconds

/-- R21: the value of a mark matches Site Time. -/
def SiteTime.matches (t : SiteTime) (value : Option Word) : Bool :=
  match value with
  | some v => decide (v = t.markSecond)
  | none => true

/-- R22: the phase error is within the capture window. -/
def SiteTime.inWindow (t : SiteTime) : Bool := decide (t.phaseError.natAbs ≤ t.window)

/-- R22: a mark is good. -/
def SiteTime.goodMark (t : SiteTime) (value : Option Word) : Bool := t.inWindow && t.matches value && !t.markSeen

/-- R24: the clock after a correction. -/
def SiteTime.corrected (t : SiteTime) : SiteTime := { t with ticks := 0, seconds := t.markSecond, markSeen := true }

/-- R25: the clock after a set or a step. -/
def SiteTime.jumped (t : SiteTime) (value : Option Word) : SiteTime :=
  { t with ticks := 0, seconds := value.getD t.markSecond, markSeen := true }

/-- R27 to R30: what a good mark does to the state, the runs and the holdover count. -/
def State.goodMarkRule (s : State) : State :=
  match s.time.state with
  | .acquiring =>
    let s1 := s.withTime { s.time with goodRun := min 3 (s.time.goodRun + 1) }
    if 3 ≤ s.time.goodRun + 1 ∧ s.time.source = .reference then s1.enterLocked else s1
  | .locked => s.withTime { s.time with outlierRun := 0, missedRun := 0 }
  | .holdover =>
    if s.time.source = .reference then s.enterLocked else s.withTime { s.time with holdover := 0 }
  | .freeRun => s.enterAcquiring
  | .unset => s

/-- R24: a good mark, with its correction and what comes at the same moment (log 21). With a reference loss at the same
moment, each order of the two commands has its own result by R19 and R29: at holdover limit 1 a forward mark in LOCKED
gives ACQUIRING after the loss and HOLDOVER before it (DESIGN CHOICE, log 21). A mark that takes the clock back parts a
TIMING cell taken before from the next millisecond event (log 32). -/
def State.goodMark (s : State) (readFault : Bool) : State :=
  let e := s.time.phaseError
  let s1 := s.noteOpening.withTime s.time.corrected
  let s2 := (if e < 0 then s1.ownSecond else s1).goodMarkRule
  let s3 := if e < 0 then s2.neighbourSecond.neighbourMillisecond else if e = 0 then s2 else s2.laterPorts
  (if e = 0 then s3 else s3.alarmTest).takeReached readFault

/-- R25 to R30, R32: a set or a step, with the entry into ACQUIRING and what comes at the same moment (log 21). -/
def State.jumpToMark (s : State) (value : Option Word) (readFault : Bool) : State :=
  let s1 := (s.noteOpening.withTime (s.time.jumped value)).ownSecond.enterAcquiring
  ((s1.movePhase s1.now 0).neighbourSecond.neighbourMillisecond.alarmTest).takeStepped readFault

/-- R25: a step latches TIME_STEP. -/
def State.stepToMark (s : State) (value : Option Word) (readFault : Bool) : State :=
  (s.latch .timeStep).jumpToMark value readFault

/-- R23: mark seen is set by a mark inside the window. -/
def State.seeMark (s : State) : State :=
  if s.time.inWindow then s.withTime { s.time with markSeen := true } else s

/-- R27 to R30: an outlier. -/
def State.outlier (s : State) (value : Option Word) (readFault : Bool) : State :=
  match s.time.state with
  | .locked =>
    if 3 ≤ s.time.outlierRun + 1 then s.settleEvent.stepToMark value readFault
    else s.seeMark.withTime { s.seeMark.time with outlierRun := s.time.outlierRun + 1 }
  | .acquiring | .holdover | .freeRun => s.settleEvent.stepToMark value readFault
  | .unset => s

/-- R21, R22, R26: a mark at the present tick is judged. One that moves the clock is taken after an event that is still due
at that tick, which it leaves to no later row; one that does not leaves the event due (R18). DESIGN CHOICE (log 3). -/
def State.judgeMark (s : State) (value : Option Word) (readFault : Bool) : State :=
  if s.time.state = .unset then
    match value with
    | some _ => s.settleEvent.jumpToMark value readFault
    | none => s
  else if s.time.goodMark value then (if s.time.phaseError = 0 then s else s.settleEvent).goodMark readFault
  else s.outlier value readFault

/-- SECOND_MARK (R21), at a tick of the present second (log 3). -/
def execSecondMark (tick : Nat) (value : Option Word) (readFault : Bool) (s : State) :
    Host.Outcome State Fault Refusal :=
  .next ((s.countTo tick).judgeMark value readFault)

/-! ### The reference monitor (R19, R20) -/

/-- The edges of the reference at the pin. -/
def State.setEdges (s : State) (b : Bool) : State := { s with pins := { s.pins with refEdges := b } }

/-- R19: the edges stop while the source is REFERENCE. -/
def State.loseReference (s : State) : State :=
  let s1 := (s.withTime { s.time with source := .localOsc }).latch .refClock
  if s.time.state = .locked then s1.enterHoldover else s1

/-- REF_CLOCK_LOSS (R19). While the source is LOCAL it only drops the note of R20. -/
def execRefClockLoss (s : State) : Host.Outcome State Fault Refusal :=
  if s.time.source = .reference then .next (s.setEdges false).loseReference else .next (s.setEdges false)

/-- REF_CLOCK_RESUME (R20): the return is noted, since the note is the edges present while the source is LOCAL. -/
def execRefClockResume (s : State) : Host.Outcome State Fault Refusal := .next (s.setEdges true)

end Sys2Proof.Machine
end

