-- ==== Sys2Proof/Machine/CellTimes.lean ====
section
/-! DEFINITION. Machine/CellTimes.lean: the rows of the Emitter that come at a due time: cell times, block starts and
block discards (05). -/

namespace Sys2Proof.Machine

/-- CELL_TIME (R72), at the due time of the next cell number. When that lies in a later second, or the head's stamp is
reached by then, no cell time is taken (logs 1, 3, 23). -/
def execCellTime (readFault : Bool) (s : State) : Host.Outcome State Fault Refusal :=
  let s1 := s.countToStamp s.nextDue
  if s1.cellDue && !s1.headReached then .next (s1.cellTime readFault) else .next s

/-- The part at the head's stamp, when that is in the present second or already reached. -/
def State.atHead (s : State) : State :=
  match s.headStamp with
  | some x => s.countToStamp x
  | none => s

/-- BLOCK_START (R73), at the stamp of the head, outside MUTED. -/
def execBlockStart (readFault : Bool) (s : State) : Host.Outcome State Fault Refusal :=
  if decide (s.atHead.emitter.state ≠ .muted) && s.atHead.headReached then .next (s.atHead.takeReached readFault) else .next s

/-- BLOCK_DISCARD (R79), at the stamp of the head, in MUTED. -/
def execBlockDiscard (s : State) : Host.Outcome State Fault Refusal :=
  if decide (s.atHead.emitter.state = .muted) && s.atHead.headReached then .next (s.atHead.takeReached false) else .next s

end Sys2Proof.Machine
end

