-- ==== Sys2Proof/Machine/Resets.lean ====
section
/-! DEFINITION. Machine/Resets.lean: the FULL and the TRAFFIC reset of the whole part, and RESET_LINE (R16, R50, R51, R67,
R68, R93, R94, R116, R117, R132, R133, R155, R156, R161, R164, R165, R169, R171, R184, R185). -/

namespace Sys2Proof.Machine

/-! ### FULL -/

/-- R116, R132: the store's entries, record and counts are reset; its pages, its intake and the reads in flight, now
stale, are kept. -/
def ClipStore.fullReset (c : ClipStore) : ClipStore :=
  { ClipStore.reset with
    pages := c.pages
    intake := c.intake
    reads := c.reads.map fun r => { r with stale := true } }

/-- Every block in its FULL reset state, with the straps read again. What no rule resets stays: the commands waiting, the
pins, the DDR, the cue and load intakes, and what has left the part. -/
def State.fullReset (s : State) : State :=
  { State.reset with
    pending := s.pending
    pins := s.pins
    delay := s.delay
    clips := s.clips.fullReset
    splice := { Splice.reset with intake := s.splice.intake }
    engine := Engine.reset s.pins.straps
    out := s.out
    faultCount := s.faultCount }

/-- RESET_LINE (R185): a FULL reset with no reply; the operand is what stands at the straps (log 6). -/
def execResetLine (straps : BitVec 12) (s : State) : Host.Outcome State Fault Refusal :=
  .next ({ s with pins := { s.pins with straps := straps } } : State).fullReset

/-! ### TRAFFIC -/

/-- R51. -/
def FeedPort.trafficReset (p : FeedPort) : FeedPort :=
  { p with state := .absent, current := none, silence := p.silenceLatch }

/-- R68. -/
def SlotTable.trafficReset (t : SlotTable) : SlotTable := { t with slots := Table.fill 256 Slot.free, queue := [] }

/-- R156: one service's entries leave with outcome RESET, from the head onward. -/
def State.resetSchedule (s : State) (n : Fin 8) : State :=
  ((s.schedule n).foldl (fun s e => (s.releaseList e.clips).writeRecord n e .reset .none) s).setSchedule n []

/-- R94: the Emitter, with every label's discontinuity pending. -/
def State.resetEmitter (s : State) : State :=
  let s1 := match s.emitter.current with
    | some b => s.addUnsent (b.count - (s.emitter.phase.cell + 1))
    | none => s
  ({ s1 with emitter := { s1.emitter with
      state := if s.emitter.reasons.held then .muted else .idle, current := none, timer := 0 } } : State).pendAll

/-- R169: the runner is IDLE and its queue empty. -/
def ListRunner.trafficReset (r : ListRunner) : ListRunner := { r with state := .idle, triggers := [] }

/-- The TRAFFIC reset of the whole part, FEED_BACK included (R184). -/
def State.trafficReset (s : State) : State :=
  let s1 : State := { (services.foldl State.resetSchedule s).resetEmitter with
    portA := s.portA.trafficReset
    portB := s.portB.trafficReset
    slots := s.slots.trafficReset
    channels := s.channels.map Channel.flushed
    runner := s.runner.trafficReset }
  ({ s1 with engine := { s1.engine with siteId := s.pins.straps } } : State).latch .feedBack

end Sys2Proof.Machine
end

