-- ==== Sys2Proof/Machine/Spaces.lean ====
section
/-! DEFINITION. Machine/Spaces.lean: the 15 spaces as READ and DESCRIBE show them (R177, R178, R189, R190). What an
absent value is shown as, where the layouts leave it open, is of log 15. -/

namespace Sys2Proof.Machine

/-! ### The four figures of a space (10, "Spaces"; R178) -/

/-- Entries of each space. -/
def spaceEntries (n : Nat) : Nat := [15, 2048, 8, 64, 128, 32, 64, 9, 256, 1, 4, 4, 16, 256, 1].getD n 0

/-- The spaces a WRITE may name. -/
def spaceWritable (n : Nat) : Bool :=
  [false, true, true, true, false, false, false, false, false, true, true, false, true, true, false].getD n false

/-- The per-report figure of each space. -/
def spacePerReport (n : Nat) : Nat := [15, 28, 8, 14, 5, 4, 8, 5, 14, 1, 4, 4, 16, 1, 1].getD n 0

/-- DESCRIBE data: 0-1 entries; 2-3 entry size; 4 writable; 5 per-report figure. -/
def describeBytes (n : Nat) : List Byte :=
  nat16 (spaceEntries n) ++ nat16 (entrySize (BitVec.ofNat 8 n)) ++ [yesNo (spaceWritable n)] ++ nat8 (spacePerReport n)

/-! ### Entries -/

/-- Space 1, Label Table. -/
def LabelRecord.bytes (r : LabelRecord) : List Byte :=
  [r.role.code, r.service,
   match r.lastSeq with | some q => q.setWidth 8 | none => 0xFF,
   yesNo r.pending] ++ be32 r.emitted

/-- The code of a last refusal, 0 when absent. -/
def refusalCode (r : Option (CueRefusal × Half)) : Byte :=
  match r with
  | some x => x.1.code
  | none => 0

/-- The break id of a last refusal. 0 when absent, where R187 gives bytes 8-9 neither a presence bit nor an absent value.
DESIGN CHOICE (log 15). -/
def refusalBreak (r : Option (CueRefusal × Half)) : Half :=
  match r with
  | some x => x.2
  | none => 0

/-- Space 2, Service Table, with the channel's depth and refill mark. -/
def Service.bytes (v : Service) (c : Channel) : List Byte :=
  [yesNo v.enable] ++ nat8 v.armLead ++ nat16 c.depth ++ nat16 c.refill ++
  [refusalCode v.lastRefusal, 0] ++ be16 (refusalBreak v.lastRefusal) ++ [0, 0] ++
  be32 v.accepted ++ be32 v.ignored ++ be32 v.refused

/-- Space 3, Break Map. -/
def BreakEntry.bytes (e : BreakEntry) : List Byte :=
  [flagBit 7 e.valid ||| BitVec.ofNat 8 e.service.val] ++ be16 e.breakId ++ nat8 e.clips.length ++ clipBytes e.clips ++
  mapBytes e.labelMap

/-- Space 4, Clip Directory. -/
def ClipEntry.bytes (e : ClipEntry) : List Byte :=
  [e.state.code, flagBit 0 e.played ||| flagBit 1 e.written] ++ nat16 e.basePage ++ nat16 e.pages ++ nat32 e.cells ++
  be32 e.origin ++ nat32 e.duration ++ be32 e.declaredCheck ++ nat32 e.nextSegment ++ be32 e.runningCheck ++
  nat8 e.useCount ++ [0] ++ be32 e.repeats ++ be32 e.gaps ++ be32 e.failures

/-- Space 5, Splice Schedule, of an entry held. -/
def ScheduleEntry.bytes (e : ScheduleEntry) : List Byte :=
  [e.state.code,
   flagBit 0 e.faulted ||| flagBit 1 e.cancelRequested ||| flagBit 2 e.primeGeneration.isSome |||
     flagBit 3 e.firstCell.isSome] ++
  be16 e.breakId ++ be16 e.inBlock ++ be16 e.outBlock ++ be32 e.pt ++ nat8 e.clips.length ++ nat8 e.clipsCompleted ++
  clipBytes e.clips ++ mapBytes e.labelMap ++ be32 (e.primeGeneration.getD 0) ++ be32 e.cellsFromClips ++
  be32 e.cellsNull ++ be32 (e.firstCell.getD 0) ++ [0, 0]

/-- An entry shown absent (R177, log 15). -/
def absentBytes (n : Nat) : List Byte := List.replicate n 0

/-- Space 6, As-Run Log, of a record held. -/
def AsRunRecord.bytes (r : AsRunRecord) : List Byte :=
  be16 r.number ++
  [flagBit 0 true ||| flagBit 1 r.firstCell.isSome ||| flagBit 2 r.lastNoticed.isSome, BitVec.ofNat 8 r.service.val] ++
  be16 r.breakId ++ be16 r.inBlock ++ be16 r.outBlock ++ [r.outcome.code, r.reason.code] ++ nat8 r.clipsCompleted ++
  [0] ++ be32 r.cellsFromClips ++ be32 r.cellsNull ++ be32 (r.firstCell.getD 0) ++ be16 (r.lastNoticed.getD 0)

/-- Space 7, Playout Status. -/
def Channel.bytes (c : Channel) : List Byte :=
  [c.state.code,
   flagBit 0 c.inFlight ||| flagBit 1 c.exhausted ||| flagBit 2 c.halted ||| flagBit 3 c.passMarkDue] ++
  nat16 c.queue.length ++ nat16 c.depth ++ nat16 c.refill ++ nat8 c.clips.length ++ nat8 c.listIndex ++
  nat8 c.inFlightCount ++ [0] ++ clipBytes c.clips ++ mapBytes (c.labelMap.getD (Table.fill 4 none)) ++
  nat32 c.cellIndex ++ be32 c.generation ++ be32 c.underruns ++ be32 c.malformed ++ be32 c.invalidTimes

/-- R66: the queue position of a READY slot. -/
def State.queuePosition (s : State) (i : Fin 256) : Option Nat :=
  if (s.slot i).state = .ready then s.slots.queue.findIdx? fun q => decide (q = i) else none

/-- Space 8, Delay Slots. -/
def State.slotBytes (s : State) (i : Fin 256) : List Byte :=
  let sl := s.slot i
  [sl.state.code, flagBit 0 sl.dispatched ||| flagBit 1 (s.queuePosition i).isSome] ++ be16 sl.block ++ be32 sl.stamp ++
  nat16 sl.count ++ [(sl.copyA.state.code <<< 4) ||| sl.copyB.state.code] ++ nat8 ((s.queuePosition i).getD 0) ++
  nat16 sl.copyA.received ++ nat16 sl.copyB.received

/-- Space 9, Site Settings, with P as R13 states. -/
def State.settingsBytes (s : State) : List Byte :=
  be16 s.feeds.networkId ++ nat16 s.feeds.silenceLimit ++ [feedCode s.feeds.preferred, yesNo s.emitter.fallbackEnable] ++
  nat32 s.slots.minLead ++ nat32 s.slots.maxAhead ++ nat16 s.time.window ++ nat16 s.time.holdoverLimit ++
  nat32 (s.emitter.pendingPeriod.getD s.emitter.period) ++ nat16 s.emitter.fallbackDelay ++
  [match s.emitter.fallbackClip with | some n => BitVec.ofNat 8 n.val | none => 0xFF, 0] ++
  mapBytes s.emitter.fallbackMap ++ nat16 (s.channel 8).depth ++ nat16 (s.channel 8).refill ++ be16 s.engine.groups

/-- A list number, or 0xFF for none. -/
def listByte (l : Option (Fin 16)) : Byte :=
  match l with
  | some n => BitVec.ofNat 8 n.val
  | none => 0xFF

/-- Space 10, Counters. -/
def Counter.bytes (c : Counter) : List Byte :=
  nat16 c.latch ++ nat16 c.value ++ [c.source.code, c.mode.code, yesNo c.running, listByte c.action] ++ be32 c.underflows

/-- Space 11, Alarms. -/
def Alarm.bytes (a : Alarm) : List Byte :=
  [yesNo a.armed, listByte a.list, 0, 0] ++ be32 a.target ++ be32 a.targetSeconds ++ nat32 a.targetTicks ++ be32 a.fires

/-- Space 12, List Descriptors. -/
def ListDescriptor.bytes (d : ListDescriptor) : List Byte := [yesNo d.defined] ++ nat8 d.first ++ nat8 d.length ++ [0]

/-- Space 13, List Store: a command body (R188). -/
def StoredCommand.bytes (c : StoredCommand) : List Byte := be16 c.tag ++ [c.code, 0] ++ c.params.items

/-! ### CLIP_FAULT data (R115, R189) -/

/-- The Clip Fault Record in 16 bytes. -/
def FaultRecord.bytes (r : FaultRecord) : List Byte :=
  [yesNo r.frozen,
   match r.reason with | some x => x.code | none => 0,
   match r.access with | some x => x.code | none => 0,
   match r.clip with | some n => BitVec.ofNat 8 n.val | none => 0xFF,
   flagBit 0 r.index.isSome ||| flagBit 1 r.channel.isSome ||| flagBit 2 r.block.isSome,
   match r.channel with | some n => BitVec.ofNat 8 n.val | none => 0] ++
  be16 (r.block.getD 0) ++ nat32 (r.index.getD 0) ++ be32 r.whileFrozen

/-! ### Site Status (space 14), in three parts -/

/-- Part 1, bytes 0-15. -/
def SiteTime.bytes (t : SiteTime) : List Byte :=
  be32 t.seconds ++ nat32 t.ticks.val ++ [t.state.code, t.source.code] ++ nat8 t.goodRun ++ nat8 t.outlierRun ++
  nat8 t.missedRun ++ [yesNo t.markSeen] ++ nat16 t.holdover

/-- A port's sixteen counts. -/
def FeedCounts.bytes (k : FeedCounts) : List Byte :=
  be32 k.damaged ++ be32 k.malformed ++ be32 k.stray ++ be32 k.foreign ++ be32 k.badTiming ++ be32 k.notTimed ++
  be32 k.late ++ be32 k.early ++ be32 k.duplicate ++ be32 k.divergence ++ be32 k.collision ++ be32 k.good ++
  be32 k.checkFailures ++ be32 k.short ++ be32 k.writeFaults ++ be32 k.withdrawn

/-- Part 1, a feed port. -/
def FeedPort.bytes (p : FeedPort) : List Byte :=
  [p.state.code, flagBit 0 p.current.isSome,
   match p.current with | some c => BitVec.ofNat 8 c.slot.val | none => 0, 0] ++
  nat16 p.silence ++ nat16 p.expected ++ nat16 p.received ++ [0, 0] ++ p.counts.bytes

/-- Part 1, the Slot Table's counts. -/
def SlotCounts.bytes (k : SlotCounts) : List Byte :=
  be32 k.opened ++ be32 k.ready ++ be32 k.lost ++ be32 k.lateCompletions ++ be32 k.stampClashes ++ be32 k.cues ++
  be32 k.mgmts ++ be32 k.loads

/-- Part 1 of Site Status. -/
def State.statusPart1 (s : State) : List Byte :=
  s.time.bytes ++ s.portA.bytes ++ s.portB.bytes ++ s.slots.counts.bytes

/-- The Emitter's nine counts. -/
def EmitterCounts.bytes (k : EmitterCounts) : List Byte :=
  be32 k.started ++ be32 k.overruns ++ be32 k.muteDrops ++ be32 k.skipped ++ be32 k.unsent ++ be32 k.readFaults ++
  be32 k.fallbackEntries ++ be32 k.fallbackFaults ++ be32 k.feedSwitches

/-- The current block's fields: slot; copy; block number; cell count; cells sent. -/
def currentBytes (b : Option CurrentBlock) : List Byte :=
  match b with
  | some b => [BitVec.ofNat 8 b.slot.val, feedCode b.copy] ++ be16 b.block ++ nat16 b.count ++ nat16 b.sent
  | none => [0, 0, 0, 0, 0, 0, 0, 0]

/-- Part 2, the Emitter. -/
def Emitter.bytes (e : Emitter) : List Byte :=
  [e.state.code, flagBit 0 e.reasons.time ||| flagBit 1 e.reasons.operator,
   match e.activeFeed with | some f => feedCode f | none => 0xFF,
   flagBit 0 e.current.isSome] ++ currentBytes e.current ++ nat16 e.timer ++ e.counts.bytes

/-- Part 2, the store's other five counts. -/
def StoreCounts.bytes (k : StoreCounts) : List Byte :=
  be32 k.loadCells ++ be32 k.unknownClips ++ be32 k.segmentsWritten ++ be32 k.writeFaults ++ be32 k.readFaults

/-- Part 2, the Splice Unit. -/
def Splice.bytes (p : Splice) : List Byte :=
  be16 p.lastAsRun ++ be16 (p.lastNoticed.getD 0) ++ [flagBit 0 p.lastNoticed.isSome, 0] ++ be32 p.badCues

/-- Part 2 of Site Status. -/
def State.statusPart2 (s : State) : List Byte :=
  s.emitter.bytes ++ s.clips.record.bytes ++ s.clips.counts.bytes ++ s.splice.bytes

/-- Part 3: the runner's state, list and index. -/
def RunnerState.bytes (r : RunnerState) : List Byte :=
  match r with
  | .idle => [0, 0xFF, 0xFF]
  | .running l _ _ index _ => [1, BitVec.ofNat 8 l.val, BitVec.ofNat 8 index]

/-- Part 3: the eight places of the Pending Trigger Queue, oldest first. A place past the fill is shown absent, 0xFF.
DESIGN CHOICE (log 15). -/
def triggerBytes (l : List (Fin 16)) : List Byte :=
  ((l.map fun (n : Fin 16) => BitVec.ofNat 8 n.val) ++ List.replicate 8 0xFF).take 8

/-- Part 3: the list fault record. -/
def listFaultBytes (f : Option ListFault) : List Byte :=
  match f with
  | some f => [BitVec.ofNat 8 f.list.val, BitVec.ofNat 8 f.index, f.status.code]
  | none => [0, 0, 0]

/-- Part 3, the List Runner. -/
def ListRunner.bytes (r : ListRunner) : List Byte :=
  r.state.bytes ++ nat8 r.triggers.length ++ triggerBytes r.triggers ++ listFaultBytes r.fault ++
  [flagBit 0 r.fault.isSome ||| flagBit 1 r.lastLost.isSome,
   match r.lastLost with | some n => BitVec.ofNat 8 n.val | none => 0, 0, 0, 0] ++
  be32 r.counts.started ++ be32 r.counts.completed ++ be32 r.counts.faults ++ be32 r.counts.triggersLost

/-- The engine's seven counts. -/
def EngineCounts.bytes (k : EngineCounts) : List Byte :=
  be32 k.cellCommands ++ be32 k.listCommands ++ be32 k.notAddressed ++ be32 k.overflows ++ be32 k.queued ++
  be32 k.dropped ++ be32 k.events

/-- Part 3, the Management Engine. -/
def Engine.bytes (g : Engine) : List Byte :=
  be16 (g.siteId.setWidth 16) ++ be16 g.groups ++ be32 (g.latched.setWidth 32) ++ be32 (g.mask.setWidth 32) ++
  be32 (g.fresh.setWidth 32) ++ nat16 g.intake.length ++ nat8 g.reports.length ++ [yesNo g.droppedFlag] ++ g.counts.bytes

/-- Part 3 of Site Status. -/
def State.statusPart3 (s : State) : List Byte := s.runner.bytes ++ s.engine.bytes

/-! ### READ (R177) -/

/-- Entry `i` of the Splice Schedule space, index service × 4 + position (R144). -/
def State.scheduleBytes (s : State) (i : Nat) : List Byte :=
  match index? 8 (i / 4) with
  | some n =>
    match (s.schedule n)[i % 4]? with
    | some e => e.bytes
    | none => absentBytes 44
  | none => absentBytes 44

/-- Entry `i` of the As-Run Log space, by age (R154). -/
def State.asRunBytes (s : State) (i : Nat) : List Byte :=
  match s.splice.asRun[i]? with
  | some r => r.bytes
  | none => absentBytes 28

/-- The bytes of a numbered entry of a table, none beyond it. -/
def tableBytes {α : Type} {n : Nat} (t : Table α n) (f : α → List Byte) (i : Nat) : List Byte :=
  match index? n i with
  | some k => f (t.get k)
  | none => []

/-- Entry `i` of space `n` as it stands (R190). -/
def State.entryBytes (s : State) (n i : Nat) : List Byte :=
  match n with
  | 0 => describeBytes i
  | 1 => tableBytes s.emitter.labels LabelRecord.bytes i
  | 2 =>
    match index? 8 i with
    | some k => (s.service k).bytes (s.channel (serviceChannel k))
    | none => []
  | 3 => tableBytes s.splice.breakMap BreakEntry.bytes i
  | 4 => tableBytes s.clips.entries ClipEntry.bytes i
  | 5 => s.scheduleBytes i
  | 6 => s.asRunBytes i
  | 7 => tableBytes s.channels Channel.bytes i
  | 8 =>
    match index? 256 i with
    | some k => s.slotBytes k
    | none => []
  | 9 => s.settingsBytes
  | 10 => tableBytes s.counters Counter.bytes i
  | 11 => tableBytes s.alarms Alarm.bytes i
  | 12 => tableBytes s.runner.descriptors ListDescriptor.bytes i
  | 13 => tableBytes s.runner.store StoredCommand.bytes i
  | 14 => s.statusPart1 ++ s.statusPart2 ++ s.statusPart3
  | _ => []

/-- R177: the three tests of a READ, in order. -/
def readTests (space count : Byte) (first : Half) : Status :=
  if 14 < space.toNat then .badSpace
  else if count = 0 ∨ spacePerReport space.toNat < count.toNat then .badField
  else if spaceEntries space.toNat < first.toNat + count.toNat then .badIndex
  else .ok

/-- R189: the header of READ data: 0 space; 1 count; 2-3 first index. -/
def readHeader (space count : Byte) (first : Half) : List Byte := [space, count] ++ be16 first

/-- R177: the data of a READ that passes, one list for each part of its reply. -/
def State.readParts (s : State) (space count : Byte) (first : Half) : List (List Byte) :=
  if space = 14 then
    [readHeader space count first ++ s.statusPart1, readHeader space count first ++ s.statusPart2,
     readHeader space count first ++ s.statusPart3]
  else
    [readHeader space count first ++
      (List.range count.toNat).flatMap fun k => s.entryBytes space.toNat (first.toNat + k)]

end Sys2Proof.Machine
end

