-- ==== Sys2Proof/Machine/Writes.lean ====
section
/-! DEFINITION. Machine/Writes.lean: the WRITE command: the tests of R175 and the seven owners' judgements with their
effects (R83, R120, R134, R135, R157, R165, R176). Each owner's function answers the status and the part after it. -/

namespace Sys2Proof.Machine

/-- R175, tests 1 to 3, and R188: the space, whether it is writable, the index, and whether the entry is whole. -/
def writeTests (space : Byte) (index : Half) (entry : List Byte) : Status :=
  if 14 < space.toNat then .badSpace
  else if spaceWritable space.toNat = false then .readOnly
  else if spaceEntries space.toNat ≤ index.toNat then .badIndex
  else if entry.length < entrySize space then .badField
  else .ok

/-! ### Label Table (R83) -/

/-- R83: the role a Label Table entry carries, when the entry is accepted. -/
def readLabel? (entry : List Byte) : Option Role :=
  match readRole? (byteAt entry 0) with
  | some r => if r = .service ∧ 7 < (byteAt entry 1).toNat then none else some r
  | none => none

/-- R83: the Emitter takes a Label Table entry. -/
def takeLabel (index : Half) (entry : List Byte) (s : State) : Status × State :=
  match readLabel? entry with
  | some r =>
    let l := index.extractLsb' 0 11
    (.ok, s.setLabel l { s.label l with role := r, service := byteAt entry 1 })
  | none => (.badField, s)

/-- WRITE of the Label Table (R175, R83). -/
def writeLabel (index : Half) (entry : List Byte) (s : State) : Status × State :=
  match writeTests 1 index entry with
  | .ok => takeLabel index entry s
  | st => (st, s)

/-! ### Service Table (R134, R120) -/

/-- R134: the Splice Unit and the Playout Unit take an entry of service n. -/
def takeService (n : Fin 8) (entry : List Byte) (s : State) : Status × State :=
  let lead := (byteAt entry 1).toNat
  let depth := (halfAt entry 2).toNat
  let refill := (halfAt entry 4).toNat
  match readYesNo? (byteAt entry 0) with
  | none => (.badField, s)
  | some on =>
    if lead < 1 ∨ 64 < lead then (.badField, s)
    else match judgeDepth s (serviceChannel n) depth refill with
      | .ok =>
        (.ok, (s.setService n { s.service n with enable := on, armLead := lead }).setDepth (serviceChannel n) depth
          refill)
      | st => (st, s)

/-- WRITE of the Service Table (R175, R134). -/
def writeService (index : Half) (entry : List Byte) (s : State) : Status × State :=
  match writeTests 2 index entry with
  | .ok =>
    match index? 8 index.toNat with
    | some n => takeService n entry s
    | none => (.badIndex, s)
  | st => (st, s)

/-! ### Break Map (R135) -/

/-- R135, test 1, and R190: the entry carried, when it can be read. -/
def readBreak? (entry : List Byte) : Option BreakEntry :=
  let count := (byteAt entry 3).toNat
  if (byteAt entry 0).extractLsb' 3 4 ≠ 0 ∨ count < 1 ∨ 4 < count then none
  else match readClips? ((entry.drop 4).take count), readMap? entry 8 with
    | some clips, some m =>
      some
        { valid := (byteAt entry 0).getLsbD 7
          service := ⟨((byteAt entry 0).extractLsb' 0 3).toNat, ((byteAt entry 0).extractLsb' 0 3).isLt⟩
          breakId := halfAt entry 1
          clips := clips
          labelMap := m }
    | _, _ => none

/-- R135, test 2: another valid entry has the same service and break id. -/
def State.breakTaken (s : State) (n : Fin 64) (e : BreakEntry) : Bool :=
  (List.finRange 64).any fun k =>
    let x := s.splice.breakMap.get k
    decide (k ≠ n) && x.valid && decide (x.service = e.service) && decide (x.breakId = e.breakId)

/-- R135: the Splice Unit takes an entry at an index. -/
def takeBreak (n : Fin 64) (entry : List Byte) (s : State) : Status × State :=
  match readBreak? entry with
  | none => (.badField, s)
  | some e =>
    if e.valid && s.breakTaken n e then (.overlap, s)
    else (.ok, { s with splice := { s.splice with breakMap := s.splice.breakMap.set n e } })

/-- WRITE of the Break Map (R175, R135). -/
def writeBreak (index : Half) (entry : List Byte) (s : State) : Status × State :=
  match writeTests 3 index entry with
  | .ok =>
    match index? 64 index.toNat with
    | some n => takeBreak n entry s
    | none => (.badIndex, s)
  | st => (st, s)

/-! ### Site Settings (R176) -/

/-- The fields of a Site Settings entry (R190, space 9). -/
structure Settings where
  networkId : Half
  silenceLimit : Nat
  preferred : Feed
  fallbackEnable : Bool
  minLead : Nat
  maxAhead : Nat
  window : Nat
  holdoverLimit : Nat
  period : Nat
  fallbackDelay : Nat
  fallbackClip : Option (Fin 128)
  fallbackMap : LabelMap
  depth : Nat
  refill : Nat
  groups : Half
deriving DecidableEq, Repr

/-- The entry's fields, when every enumerated, yes/no, clip and map field can be read. -/
def readSettings? (entry : List Byte) : Option Settings :=
  match readFeed? (byteAt entry 4), readYesNo? (byteAt entry 5), readClip? (byteAt entry 24), readMap? entry 26 with
  | some f, some on, some c, some m =>
    some
      { networkId := halfAt entry 0
        silenceLimit := (halfAt entry 2).toNat
        preferred := f
        fallbackEnable := on
        minLead := (wordAt entry 6).toNat
        maxAhead := (wordAt entry 10).toNat
        window := (halfAt entry 14).toNat
        holdoverLimit := (halfAt entry 16).toNat
        period := (wordAt entry 18).toNat
        fallbackDelay := (halfAt entry 22).toNat
        fallbackClip := c
        fallbackMap := m
        depth := (halfAt entry 34).toNat
        refill := (halfAt entry 36).toNat
        groups := halfAt entry 38 }
  | _, _, _, _ => none

/-- The ranges of R49, R65, R33, R13 and R92. -/
def Settings.inRange (x : Settings) : Bool :=
  decide (10 ≤ x.silenceLimit ∧ x.silenceLimit ≤ 10000) &&
  decide (x.minLead ≤ 10000000 ∧ 1000000 ≤ x.maxAhead ∧ x.maxAhead ≤ 1200000000 ∧ x.minLead ≤ x.maxAhead) &&
  decide (1 ≤ x.window ∧ x.window ≤ 5000) && decide (1 ≤ x.holdoverLimit ∧ x.holdoverLimit ≤ 65535) &&
  decide (65536 ≤ x.period ∧ x.period ≤ 4294901760) && decide (100 ≤ x.fallbackDelay ∧ x.fallbackDelay ≤ 60000)

/-- R92, R110: the designation of a clip whose entry is EMPTY is refused. -/
def State.designationRefused (s : State) (c : Option (Fin 128)) : Bool :=
  match c with
  | some n => decide ((s.clip n).state = .empty)
  | none => false

/-- R92: a change of the fallback clip or map in FALLBACK. -/
def State.fallbackBusy (s : State) (x : Settings) : Bool :=
  decide (s.emitter.state = .fallback) &&
    (decide (x.fallbackClip ≠ s.emitter.fallbackClip) || decide (x.fallbackMap ≠ s.emitter.fallbackMap))

/-- R176: the status of a readable entry: BAD_FIELD when any owner answers it, else BUSY when one does, else FULL. -/
def State.judgeSettings (s : State) (x : Settings) : Status :=
  let d := judgeDepth s 8 x.depth x.refill
  if x.inRange = false ∨ s.designationRefused x.fallbackClip = true ∨ d = .badField then .badField
  else if s.fallbackBusy x = true ∨ d = .busy then .busy
  else d

/-- R90: fallback enable written off in FALLBACK. -/
def State.enableWritten (s : State) (on : Bool) : State :=
  if s.emitter.state = .fallback ∧ on = false then s.exitFallback.toIdle else s

/-- R49: a port's silence latch takes the written limit. -/
def FeedPort.withLatch (p : FeedPort) (n : Nat) : FeedPort := { p with silenceLatch := n }

/-- R176: an accepted entry sets every field at one moment. -/
def State.applySettings (s : State) (x : Settings) : State :=
  let s1 := ((s.enableWritten x.fallbackEnable).designate x.fallbackClip).setDepth 8 x.depth x.refill
  { s1 with
    feeds := ⟨x.networkId, x.silenceLimit, x.preferred⟩
    portA := s1.portA.withLatch x.silenceLimit
    portB := s1.portB.withLatch x.silenceLimit
    slots := { s1.slots with minLead := x.minLead, maxAhead := x.maxAhead }
    time := { s1.time with window := x.window, holdoverLimit := x.holdoverLimit }
    emitter := { s1.emitter with
      pendingPeriod := some x.period
      fallbackEnable := x.fallbackEnable
      fallbackDelay := x.fallbackDelay
      fallbackClip := x.fallbackClip
      fallbackMap := x.fallbackMap }
    engine := { s1.engine with groups := x.groups } }

/-- R176: the owners take a Site Settings entry. -/
def takeSettings (entry : List Byte) (s : State) : Status × State :=
  match readSettings? entry with
  | none => (.badField, s)
  | some x =>
    match s.judgeSettings x with
    | .ok => (.ok, s.applySettings x)
    | st => (st, s)

/-- WRITE of the Site Settings (R175, R176). -/
def writeSettings (index : Half) (entry : List Byte) (s : State) : Status × State :=
  match writeTests 9 index entry with
  | .ok => takeSettings entry s
  | st => (st, s)

/-! ### Counters (R157) -/

/-- R157: the counter after an accepted entry; the value is loaded from the new latch when it is stopped. -/
def Counter.written (c : Counter) (latch : Nat) (src : CounterSource) (mode : CounterMode) (action : Option (Fin 16)) :
    Counter :=
  let l := if latch = 0 then 1 else latch
  { c with latch := l, source := src, mode := mode, action := action, value := if c.running then c.value else l }

/-- R157: the Counter Bank takes an entry of counter n. -/
def takeCounter (n : Fin 4) (entry : List Byte) (s : State) : Status × State :=
  match readCounterSource? (byteAt entry 4), readCounterMode? (byteAt entry 5), readList? (byteAt entry 7) with
  | some src, some mode, some action =>
    if src = .cascade ∧ n = 0 then (.badField, s)
    else (.ok, s.setCounter n ((s.counters.get n).written (halfAt entry 0).toNat src mode action))
  | _, _, _ => (.badField, s)

/-- WRITE of the Counters space (R175, R157). -/
def writeCounter (index : Half) (entry : List Byte) (s : State) : Status × State :=
  match writeTests 10 index entry with
  | .ok =>
    match index? 4 index.toNat with
    | some n => takeCounter n entry s
    | none => (.badIndex, s)
  | st => (st, s)

/-! ### List Descriptors and List Store (R165) -/

/-- A descriptor replaced. -/
def State.setDescriptor (s : State) (n : Fin 16) (d : ListDescriptor) : State :=
  { s with runner := { s.runner with descriptors := s.runner.descriptors.set n d } }

/-- R165: the List Runner takes a descriptor. -/
def takeDescriptor (n : Fin 16) (entry : List Byte) (s : State) : Status × State :=
  let first := (byteAt entry 1).toNat
  let length := (byteAt entry 2).toNat
  match readYesNo? (byteAt entry 0) with
  | none => (.badField, s)
  | some true =>
    if length < 1 ∨ 64 < length ∨ 256 < first + length then (.badField, s)
    else (.ok, s.setDescriptor n ⟨true, first, length⟩)
  | some false => (.ok, s.setDescriptor n { s.runner.descriptors.get n with defined := false })

/-- WRITE of a List Descriptor (R175, R165). -/
def writeDescriptor (index : Half) (entry : List Byte) (s : State) : Status × State :=
  match writeTests 12 index entry with
  | .ok =>
    match index? 16 index.toNat with
    | some n => takeDescriptor n entry s
    | none => (.badIndex, s)
  | st => (st, s)

/-- R188: the command body of a List Store entry. -/
def readStored (entry : List Byte) : StoredCommand := ⟨halfAt entry 0, byteAt entry 2, Table.ofList 64 0 (entry.drop 4)⟩

/-- R165: the List Runner stores a body, whatever it holds. -/
def takeStored (n : Fin 256) (entry : List Byte) (s : State) : Status × State :=
  (.ok, { s with runner := { s.runner with store := s.runner.store.set n (readStored entry) } })

/-- WRITE of a List Store slot (R175, R165). -/
def writeStored (index : Half) (entry : List Byte) (s : State) : Status × State :=
  match writeTests 13 index entry with
  | .ok =>
    match index? 256 index.toNat with
    | some n => takeStored n entry s
    | none => (.badIndex, s)
  | st => (st, s)

/-! ### Any WRITE -/

/-- R175: a WRITE of any space, by its number. -/
def writeSpace (space : Byte) (index : Half) (entry : List Byte) (s : State) : Status × State :=
  match space.toNat with
  | 1 => writeLabel index entry s
  | 2 => writeService index entry s
  | 3 => writeBreak index entry s
  | 9 => writeSettings index entry s
  | 10 => writeCounter index entry s
  | 12 => writeDescriptor index entry s
  | 13 => writeStored index entry s
  | _ => (writeTests space index entry, s)

end Sys2Proof.Machine
end

