-- ==== Sys2Proof/Machine/Engine.lean ====
section
/-! DEFINITION. Machine/Engine.lean: the Management Engine (10): taking commands in turn, executing them, replies, and
one meaning for each row that is a management command. -/

namespace Sys2Proof.Machine

/-! ### Commands that act on the engine, the Emitter and the Clip Store's record -/

/-- What executing a command gives: its status, the data of each part of its reply, and the part after it (R174). -/
structure Done where
  status : Status
  parts : List (List Byte)
  after : State
deriving DecidableEq, Repr

/-- A command that returns a status and no data. -/
def noData (r : Status × State) : Done := ⟨r.1, [[]], r.2⟩

/-- A refused command: no data, no change (R174). -/
def refused (s : State) (st : Status) : Done := ⟨st, [[]], s⟩

/-- READ (R177). -/
def runRead (s : State) (space count : Byte) (first : Half) : Done :=
  match readTests space count first with
  | .ok => ⟨.ok, s.readParts space count first, s⟩
  | st => refused s st

/-- DESCRIBE (R178). -/
def runDescribe (s : State) (space : Byte) : Done :=
  if 14 < space.toNat then refused s .badSpace else ⟨.ok, [describeBytes space.toNat], s⟩

/-- R181: the events of a 32-bit field; positions 24 and above are ignored. -/
def eventsOf (x : Word) : BitVec 24 := x.setWidth 24

/-- EVENT_MASK (R181). -/
def runEventMask (s : State) (op : Byte) (x : Word) : Done :=
  let g := s.engine
  if op = 1 then
    ⟨.ok, [eventSetBytes (g.mask ||| eventsOf x)], { s with engine := { g with mask := g.mask ||| eventsOf x } }⟩
  else if op = 2 then
    ⟨.ok, [eventSetBytes (g.mask &&& ~~~(eventsOf x))],
      { s with engine := { g with mask := g.mask &&& ~~~(eventsOf x), fresh := g.fresh &&& ~~~(eventsOf x) } }⟩
  else refused s .badField

/-- EVENT_READ (R181). -/
def runEventRead (s : State) : Done :=
  let g := s.engine
  ⟨.ok, [eventSetBytes g.latched], { s with engine := { g with latched := 0, fresh := g.fresh &&& ~~~g.latched } }⟩

/-- CLIP_FAULT (R115). -/
def runClipFault (s : State) : Done :=
  ⟨.ok, [s.clips.record.bytes], { s with clips := { s.clips with record := FaultRecord.clear } }⟩

/-- R70, R74, R179: MUTE OFF, with the test of the head when the Emitter leaves MUTED. -/
def State.unmute (s : State) : State :=
  let s1 := s.setOperatorReason false
  if s.emitter.state = .muted ∧ s1.emitter.state ≠ .muted then s1.takeReached false else s1

/-- MUTE (R179). -/
def runMute (s : State) (op : Byte) : Done :=
  if op = 1 then noData (.ok, s.setOperatorReason true)
  else if op = 2 then noData (.ok, s.unmute)
  else refused s .badField

/-- RESET_SITE (R184, R185). -/
def runReset (s : State) (scope : Byte) : Done :=
  if scope = 1 then noData (.ok, s.fullReset)
  else if scope = 2 then noData (.ok, s.trafficReset)
  else refused s .badField

/-- A command executed whole, its reply apart (R174 and each owner's rule). -/
def runCommand (c : Command) (s : State) : Done :=
  match c with
  | .write space index entry => noData (writeSpace space index entry s)
  | .read space count first => runRead s space count first
  | .describe space => runDescribe s space
  | .clipDefine clip base pages cells org duration check => noData (defineClip s clip base pages cells org duration check)
  | .clipRelease clip => noData (releaseClip s clip)
  | .cancelBreak service id => noData (cancelCommand s service id)
  | .eventMask op x => runEventMask s op x
  | .eventRead => runEventRead s
  | .clipFault => runClipFault s
  | .counter n op => noData (counterCommand s n op)
  | .alarmArm n list target => noData (armAlarm s n list target)
  | .alarmDisarm n => noData (disarmAlarm s n)
  | .runList list => noData (runListCommand s list)
  | .mute op => runMute s op
  | .resetSite scope => runReset s scope
  | .unknown _ => refused s .unknownCommand

/-! ### Replies (R174) -/

/-- R174, R189: one part of a reply. -/
def State.replyPart (s : State) (src : CommandSource) (tag : Half) (code : Byte) (st : Status) (part parts : Nat)
    (data : List Byte) : Report where
  siteId := s.engine.siteId
  kind := .reply
  dropped := false
  source := src
  tag := tag
  code := code
  status := st
  part := part
  parts := parts
  data := data

/-- The parts of a reply queued one after another, the first numbered `k`. -/
def State.queueParts (s : State) (src : CommandSource) (tag : Half) (code : Byte) (st : Status) (parts : Nat) :
    Nat → List (List Byte) → State
  | _, [] => s
  | k, d :: ds => (s.queueReport (s.replyPart src tag code st k parts d)).queueParts src tag code st parts (k + 1) ds

/-- R174: the reply to a command that has been executed. -/
def Done.replied (d : Done) (src : CommandSource) (tag : Half) (code : Byte) : State :=
  d.after.queueParts src tag code d.status d.parts.length 1 d.parts

/-! ### Taking a command (R172, R173) -/

/-- R186: a command is taken from a source, counted, and the source becomes the last one. -/
def Engine.counted (g : Engine) (src : CommandSource) : Engine :=
  match src with
  | .intake => { g with lastSource := .intake, counts := { g.counts with cellCommands := g.counts.cellCommands + 1 } }
  | .runner => { g with lastSource := .runner, counts := { g.counts with listCommands := g.counts.listCommands + 1 } }

/-- The engine takes a command, executes it and replies. -/
def State.execute (s : State) (src : CommandSource) (tag : Half) (c : Command) : State :=
  (runCommand c { s with engine := s.engine.counted src }).replied src tag c.code

/-- R168: the status of a command from the runner. -/
def State.statusOf (s : State) (src : CommandSource) (c : Command) : Status :=
  (runCommand c { s with engine := s.engine.counted src }).status

/-- R168, R173: a command from the runner, its status returned when its execution ends. -/
def State.executeList (s : State) (tag : Half) (c : Command) : State :=
  (s.execute .runner tag c).returnStatus (s.statusOf .runner c)

/-- R173: the source the engine takes from next, if either has a command waiting. -/
def State.nextSource (s : State) : Option CommandSource :=
  match s.engine.intake, s.offered? with
  | [], none => none
  | _ :: _, none => some .intake
  | [], some _ => some .runner
  | _ :: _, some _ => some (match s.engine.lastSource with | .intake => .runner | .runner => .intake)

/-- R172: a cell is addressed to this site: SITE 1, GROUP 2, ALL 3. -/
def Engine.addressed (g : Engine) (m : Mgmt) : Bool :=
  if m.form = 1 then decide (g.siteId ≠ 4095 ∧ m.target = g.siteId.setWidth 16)
  else if m.form = 2 then decide (m.target &&& g.groups ≠ 0)
  else decide (m.form = 3)

/-- R172: a cell that is not addressed to this site is discarded and counted. -/
def Engine.discarded (g : Engine) : Engine :=
  { g with lastSource := .intake, counts := { g.counts with notAddressed := g.counts.notAddressed + 1 } }

/-- R172: a cell that has left the intake. -/
def State.takeCell (s : State) (p : Payload) : State :=
  let m := readMgmt p
  if s.engine.addressed m then s.execute .intake m.tag (decodeCommand m.code m.params)
  else { s with engine := s.engine.discarded }

/-- R173: the oldest cell of the intake is taken. -/
def State.takeIntake (s : State) : State :=
  match s.engine.intake with
  | [] => s
  | p :: rest => ({ s with engine := { s.engine with intake := rest } } : State).takeCell p

/-- R173: the command the runner has offered is taken. -/
def State.takeOffered (s : State) : State :=
  match s.offered? with
  | some x => s.executeList x.1 x.2
  | none => s

/-- R173: the engine takes its next command. -/
def State.engineTakes (s : State) : State :=
  match s.nextSource with
  | some .intake => s.takeIntake
  | some .runner => s.takeOffered
  | none => s

/-- MGMT_CELL_TAKEN (R172, R173): the engine takes its next command, by its turn (log 5). An IDLE runner has by then taken
what waits for it (R167). -/
def execMgmtCellTaken (s : State) : Host.Outcome State Fault Refusal := .next s.runnerTakes.engineTakes

/-- A management command as a row: from an addressed cell with its tag, or, when it is the runner's turn and this is
the command it has offered, from the list (log 5). -/
def State.commandFrom (s : State) (o : Origin) (c : Command) : State :=
  match o with
  | .cell tag => s.execute .intake tag c
  | .list =>
    if s.nextSource = some .runner ∧ s.offered?.map Prod.snd = some c then s.takeOffered else s

/-! ### Rows -/

/-- CANCEL_BREAK (R143). -/
def execCancelBreak (o : Origin) (service : Byte) (id : Half) (s : State) : Host.Outcome State Fault Refusal :=
  .next (s.commandFrom o (.cancelBreak service id))

/-- UNKNOWN_COMMAND (R174). -/
def execUnknownCommand (o : Origin) (code : Byte) (s : State) : Host.Outcome State Fault Refusal :=
  .next (s.commandFrom o (.unknown code))

/-- WRITE (R175). -/
def execWrite (o : Origin) (space : Byte) (index : Half) (entry : List Byte) (s : State) :
    Host.Outcome State Fault Refusal :=
  .next (s.commandFrom o (.write space index (takeEntry space entry)))

/-- WRITE_LABEL_TABLE (R83). -/
def execWriteLabelTable (o : Origin) (index : Half) (entry : List Byte) (s : State) : Host.Outcome State Fault Refusal :=
  .next (s.commandFrom o (.write 1 index (takeEntry 1 entry)))

/-- WRITE_SERVICE_TABLE (R134). -/
def execWriteServiceTable (o : Origin) (index : Half) (entry : List Byte) (s : State) :
    Host.Outcome State Fault Refusal :=
  .next (s.commandFrom o (.write 2 index (takeEntry 2 entry)))

/-- WRITE_BREAK_MAP (R135). -/
def execWriteBreakMap (o : Origin) (index : Half) (entry : List Byte) (s : State) : Host.Outcome State Fault Refusal :=
  .next (s.commandFrom o (.write 3 index (takeEntry 3 entry)))

/-- WRITE_SITE_SETTINGS (R176). -/
def execWriteSiteSettings (o : Origin) (index : Half) (entry : List Byte) (s : State) :
    Host.Outcome State Fault Refusal :=
  .next (s.commandFrom o (.write 9 index (takeEntry 9 entry)))

/-- WRITE_COUNTERS (R157). -/
def execWriteCounters (o : Origin) (index : Half) (entry : List Byte) (s : State) : Host.Outcome State Fault Refusal :=
  .next (s.commandFrom o (.write 10 index (takeEntry 10 entry)))

/-- WRITE_LIST_DESCRIPTORS (R165). -/
def execWriteListDescriptors (o : Origin) (index : Half) (entry : List Byte) (s : State) :
    Host.Outcome State Fault Refusal :=
  .next (s.commandFrom o (.write 12 index (takeEntry 12 entry)))

/-- WRITE_LIST_STORE (R165). -/
def execWriteListStore (o : Origin) (index : Half) (entry : List Byte) (s : State) : Host.Outcome State Fault Refusal :=
  .next (s.commandFrom o (.write 13 index (takeEntry 13 entry)))

/-- READ (R177). -/
def execRead (o : Origin) (space count : Byte) (first : Half) (s : State) : Host.Outcome State Fault Refusal :=
  .next (s.commandFrom o (.read space count first))

/-- DESCRIBE (R178). -/
def execDescribe (o : Origin) (space : Byte) (s : State) : Host.Outcome State Fault Refusal :=
  .next (s.commandFrom o (.describe space))

/-- CLIP_DEFINE (R98). -/
def execClipDefine (o : Origin) (clip : Byte) (base pages : Half) (cells org duration check : Word) (s : State) :
    Host.Outcome State Fault Refusal :=
  .next (s.commandFrom o (.clipDefine clip base pages cells org duration check))

/-- CLIP_RELEASE (R100). -/
def execClipRelease (o : Origin) (clip : Byte) (s : State) : Host.Outcome State Fault Refusal :=
  .next (s.commandFrom o (.clipRelease clip))

/-- CLIP_FAULT (R115). -/
def execClipFault (o : Origin) (s : State) : Host.Outcome State Fault Refusal := .next (s.commandFrom o .clipFault)

/-- COUNTER_START (R160). -/
def execCounterStart (o : Origin) (counter : Byte) (s : State) : Host.Outcome State Fault Refusal :=
  .next (s.commandFrom o (.counter counter 1))

/-- COUNTER_STOP (R160). -/
def execCounterStop (o : Origin) (counter : Byte) (s : State) : Host.Outcome State Fault Refusal :=
  .next (s.commandFrom o (.counter counter 2))

/-- COUNTER_LOAD (R160). -/
def execCounterLoad (o : Origin) (counter : Byte) (s : State) : Host.Outcome State Fault Refusal :=
  .next (s.commandFrom o (.counter counter 3))

/-- ALARM_ARM (R162). -/
def execAlarmArm (o : Origin) (alarm list : Byte) (target : Word) (s : State) : Host.Outcome State Fault Refusal :=
  .next (s.commandFrom o (.alarmArm alarm list target))

/-- ALARM_DISARM (R164). -/
def execAlarmDisarm (o : Origin) (alarm : Byte) (s : State) : Host.Outcome State Fault Refusal :=
  .next (s.commandFrom o (.alarmDisarm alarm))

/-- RUN_LIST (R166). -/
def execRunList (o : Origin) (list : Byte) (s : State) : Host.Outcome State Fault Refusal :=
  .next (s.commandFrom o (.runList list))

/-- MUTE_ON (R179). -/
def execMuteOn (o : Origin) (s : State) : Host.Outcome State Fault Refusal := .next (s.commandFrom o (.mute 1))

/-- MUTE_OFF (R179). -/
def execMuteOff (o : Origin) (s : State) : Host.Outcome State Fault Refusal := .next (s.commandFrom o (.mute 2))

/-- EVENT_MASK_SET (R181). -/
def execEventMaskSet (o : Origin) (events : Word) (s : State) : Host.Outcome State Fault Refusal :=
  .next (s.commandFrom o (.eventMask 1 events))

/-- EVENT_MASK_CLEAR (R181). -/
def execEventMaskClear (o : Origin) (events : Word) (s : State) : Host.Outcome State Fault Refusal :=
  .next (s.commandFrom o (.eventMask 2 events))

/-- EVENT_READ (R181). -/
def execEventRead (o : Origin) (s : State) : Host.Outcome State Fault Refusal := .next (s.commandFrom o .eventRead)

/-- RESET_SITE_TRAFFIC (R184). -/
def execResetSiteTraffic (o : Origin) (s : State) : Host.Outcome State Fault Refusal :=
  .next (s.commandFrom o (.resetSite 2))

/-- RESET_SITE_FULL (R185). -/
def execResetSiteFull (o : Origin) (s : State) : Host.Outcome State Fault Refusal :=
  .next (s.commandFrom o (.resetSite 1))

end Sys2Proof.Machine
end

