-- ==== Sys2Proof/Machine/Fetch.lean ====
section
/-! DEFINITION. Machine/Fetch.lean: FETCH_READ_COMPLETES: a read in flight ends at the Clip Store, the Playout Unit and
the owner of its channel (R111, R112, R123 to R127, R150, R91). -/

namespace Sys2Proof.Machine

/-- R127: the owner of a channel is told of a fetch fault. -/
def State.reportFault (s : State) (n : Fin 9) (generation : Word) : State :=
  match index? 8 n.val with
  | some k => s.spliceFault k generation
  | none => s.fallbackFault

/-- R112, R126, R127: a read ends with READ_ERROR. -/
def State.readFails (s : State) (r : FetchRead) : State :=
  let s1 := faultRead s r
  if s1.staleRead r then s1 else (s1.haltChannel r.channel).reportFault r.channel r.generation

/-- R111, R112: a read ends. A read past the store has no memory to read, so it faults (log 9). -/
def State.readEnds (s : State) (r : FetchRead) (fault : Bool) : State :=
  if fault || outsideStore r.basePage (r.first * Config.cellBytes) (r.count * Config.cellBytes) then s.readFails r
  else completeRead s r

/-- FETCH_READ_COMPLETES (R111): the read at a place among those in flight ends; a place that holds none ends nothing
(log 1). -/
def execFetchReadCompletes (index : Nat) (fault : Bool) (s : State) : Host.Outcome State Fault Refusal :=
  match s.clips.reads[index]? with
  | none => .next s
  | some r => .next (({ s with clips := { s.clips with reads := s.clips.reads.eraseIdx index } } : State).readEnds r fault)

end Sys2Proof.Machine
end

