-- ==== Sys2Proof/Machine/Dispatch.lean ====
section
/-! DEFINITION. Machine/Dispatch.lean: one arm for each command, each a direct call of its meaning. -/

namespace Sys2Proof.Machine

/-- The effect of a command on everything but the queue of waiting commands. -/
def exec (i : Instr) (s : State) : Host.Outcome State Fault Refusal :=
  match i with
  | .feedCellArrives feed arrival writeFault => Sys2Proof.Machine.execFeedCellArrives feed arrival writeFault s
  | .millisecondEvent => Sys2Proof.Machine.execMillisecondEvent s
  | .secondBoundary => Sys2Proof.Machine.execSecondBoundary s
  | .holdoverExpiry => Sys2Proof.Machine.execHoldoverExpiry s
  | .silenceExpiry feed => Sys2Proof.Machine.execSilenceExpiry feed s
  | .markWindowOpen => Sys2Proof.Machine.execMarkWindowOpen s
  | .missedMark => Sys2Proof.Machine.execMissedMark s
  | .secondMark tick value readFault => Sys2Proof.Machine.execSecondMark tick value readFault s
  | .refClockLoss => Sys2Proof.Machine.execRefClockLoss s
  | .refClockResume => Sys2Proof.Machine.execRefClockResume s
  | .resetLine straps => Sys2Proof.Machine.execResetLine straps s
  | .cellTime readFault => Sys2Proof.Machine.execCellTime readFault s
  | .blockStart readFault => Sys2Proof.Machine.execBlockStart readFault s
  | .blockDiscard => Sys2Proof.Machine.execBlockDiscard s
  | .fallbackTimerExpiry => Sys2Proof.Machine.execFallbackTimerExpiry s
  | .fallbackEntry => Sys2Proof.Machine.execFallbackEntry s
  | .fetchReadCompletes index fault => Sys2Proof.Machine.execFetchReadCompletes index fault s
  | .loadCellTaken writeFault => Sys2Proof.Machine.execLoadCellTaken writeFault s
  | .cueTaken => Sys2Proof.Machine.execCueTaken s
  | .cancelBreak origin service breakId => Sys2Proof.Machine.execCancelBreak origin service breakId s
  | .mgmtCellTaken => Sys2Proof.Machine.execMgmtCellTaken s
  | .unknownCommand origin code => Sys2Proof.Machine.execUnknownCommand origin code s
  | .write origin space index entry => Sys2Proof.Machine.execWrite origin space index entry s
  | .writeLabelTable origin index entry => Sys2Proof.Machine.execWriteLabelTable origin index entry s
  | .writeServiceTable origin index entry => Sys2Proof.Machine.execWriteServiceTable origin index entry s
  | .writeBreakMap origin index entry => Sys2Proof.Machine.execWriteBreakMap origin index entry s
  | .writeSiteSettings origin index entry => Sys2Proof.Machine.execWriteSiteSettings origin index entry s
  | .writeCounters origin index entry => Sys2Proof.Machine.execWriteCounters origin index entry s
  | .writeListDescriptors origin index entry => Sys2Proof.Machine.execWriteListDescriptors origin index entry s
  | .writeListStore origin index entry => Sys2Proof.Machine.execWriteListStore origin index entry s
  | .read origin space count first => Sys2Proof.Machine.execRead origin space count first s
  | .describe origin space => Sys2Proof.Machine.execDescribe origin space s
  | .clipDefine origin clip basePage pages cells clipOrigin duration check => Sys2Proof.Machine.execClipDefine origin clip basePage pages cells clipOrigin duration check s
  | .clipRelease origin clip => Sys2Proof.Machine.execClipRelease origin clip s
  | .clipFault origin => Sys2Proof.Machine.execClipFault origin s
  | .counterStart origin counter => Sys2Proof.Machine.execCounterStart origin counter s
  | .counterStop origin counter => Sys2Proof.Machine.execCounterStop origin counter s
  | .counterLoad origin counter => Sys2Proof.Machine.execCounterLoad origin counter s
  | .counterUnderflow counter => Sys2Proof.Machine.execCounterUnderflow counter s
  | .alarmArm origin alarm list target => Sys2Proof.Machine.execAlarmArm origin alarm list target s
  | .alarmDisarm origin alarm => Sys2Proof.Machine.execAlarmDisarm origin alarm s
  | .alarmFires alarm => Sys2Proof.Machine.execAlarmFires alarm s
  | .runList origin list => Sys2Proof.Machine.execRunList origin list s
  | .triggerTaken => Sys2Proof.Machine.execTriggerTaken s
  | .muteOn origin => Sys2Proof.Machine.execMuteOn origin s
  | .muteOff origin => Sys2Proof.Machine.execMuteOff origin s
  | .eventMaskSet origin events => Sys2Proof.Machine.execEventMaskSet origin events s
  | .eventMaskClear origin events => Sys2Proof.Machine.execEventMaskClear origin events s
  | .eventRead origin => Sys2Proof.Machine.execEventRead origin s
  | .resetSiteTraffic origin => Sys2Proof.Machine.execResetSiteTraffic origin s
  | .resetSiteFull origin => Sys2Proof.Machine.execResetSiteFull origin s
  | .reportSent => Sys2Proof.Machine.execReportSent s

end Sys2Proof.Machine
end

