-- ==== Sys2Proof/Machine/Idle.lean ====
section
/-! DEFINITION. Machine/Idle.lean: what the part does by itself when no command waits (log 2): it raises the command of
an event that is due at the present tick or that the next count brings, or else counts one tick. -/

namespace Sys2Proof.Machine

/-- The command of an event that is due now: the millisecond event of the tick reached, with the second-boundary event at
tick 0 (R17, R18), the reference found stopped (R16), a trigger the IDLE runner takes (R167), a reached head (R73, R79), or
a cell time (R72). -/
def State.dueEvent (s : State) : Option Instr :=
  if s.eventDue = true then some (if s.time.ticks.val = 0 then .secondBoundary else .millisecondEvent)
  else if s.time.source = .reference ∧ s.pins.refEdges = false then some .refClockLoss
  else if s.runner.state = .idle ∧ s.runner.triggers ≠ [] then some .triggerTaken
  else if s.headReached then (if s.emitter.state = .muted then some .blockDiscard else some (.blockStart false))
  else if s.cellDue then some (.cellTime false)
  else none

/-- The command of an event that the next count of the present second brings (R23). -/
def SiteTime.nextEvent (t : SiteTime) : Option Instr :=
  let k := t.ticks.val + 1
  if k = Config.ticksPerSecond then none
  else if k = t.windowOpens then some .markWindowOpen
  else if k = t.window + 1 ∧ t.markSeen = false then some .missedMark
  else none

/-- R17: one tick counted. -/
def State.countTick (s : State) : State :=
  if s.time.ticks.val + 1 = Config.ticksPerSecond then s.wrapCount else s.countTo (s.time.ticks.val + 1)

/-- The part left to itself: a command raised, or one tick counted. A TIMING cell sent before the raised command of a
millisecond event is at the tick of that event, as R48 has it (log 32). -/
def State.idle (s : State) : State :=
  match s.dueEvent with
  | some c => { s with pending := [c] }
  | none =>
    match s.time.nextEvent with
    | some c => { s with pending := [c] }
    | none => s.countTick

end Sys2Proof.Machine
end

