-- ==== Sys2Proof/Safety.lean ====
section
/-! DEFINITION. Safety.lean: the laws of the part that a run must keep, and the terms the statements use. -/

namespace Sys2Proof.Machine

/-- R69, R31: MUTED exactly while a mute reason is held, and the TIME reason given exactly in the time states that
call for it. -/
structure MuteLaw (s : State) : Prop where
  muted_iff : s.emitter.state = .muted ↔ s.emitter.reasons.held = true
  time_reason : s.emitter.reasons.time = s.time.state.mutes

/-- Both DDR memories are in canonical form. -/
structure MemoryLaw (s : State) : Prop where
  delay : Memory.wf s.delay
  pages : Memory.wf s.clips.pages

/-- R183, R166, R173, R136, R101, R153: the Report Queue, the Pending Trigger Queue, the Command, cue and load intakes and
the As-Run Log hold no more than their room. R33: the two settings of the Site Time Unit lie in their ranges. -/
structure BoundsLaw (s : State) : Prop where
  reports : s.engine.reports.length ≤ 16
  triggers : s.runner.triggers.length ≤ 8
  commands : s.engine.intake.length ≤ 1024
  cues : s.splice.intake.length ≤ 1024
  loads : s.clips.intake.length ≤ 1024
  records : s.splice.asRun.length ≤ 64
  window_low : 1 ≤ s.time.window
  window_high : s.time.window ≤ 5000
  limit_low : 1 ≤ s.time.holdoverLimit
  limit_high : s.time.holdoverLimit ≤ 65535

/-- R180: the new set is within the mask, and its events are latched. -/
structure EventLaw (s : State) : Prop where
  within_mask : s.engine.fresh &&& ~~~s.engine.mask = 0
  latched : s.engine.fresh &&& ~~~s.engine.latched = 0

/-- R144: a schedule holds at most four entries with distinct break ids and pairwise disjoint block windows, and only its
head is ever not PENDING. R138, R145, R147: each window is of 1 to 4,096 blocks, and that of an ACTIVE head holds the last
block noticed. -/
structure ScheduleLaw (s : State) : Prop where
  room : ∀ n, (s.schedule n).length ≤ 4
  ids : ∀ n, ((s.schedule n).map ScheduleEntry.breakId).Nodup
  behind : ∀ n, ∀ e ∈ (s.schedule n).tail, e.state = .pending
  disjoint : ∀ n, (s.schedule n).Pairwise fun x y =>
    ∀ b, ¬(windowHolds x.inBlock x.outBlock b = true ∧ windowHolds y.inBlock y.outBlock b = true)
  lengths : ∀ n, ∀ e ∈ s.schedule n, 1 ≤ windowLength e.inBlock e.outBlock ∧ windowLength e.inBlock e.outBlock ≤ 4096
  on_air : ∀ n, ∀ e ∈ s.schedule n, e.state = .active →
    ∃ b, s.splice.lastNoticed = some b ∧ windowHolds e.inBlock e.outBlock b = true

/-- R144: a service's schedule is in increasing in-block order, by the precedence of block numbers (log 20). -/
def State.inBlocksRise (s : State) (n : Fin 8) : Prop :=
  (s.schedule n).Pairwise fun x y => precedes x.inBlock y.inBlock = true

/-- The in-blocks of a service's schedule lie so near one another that precedence orders them all (R12, log 20): within
32,768 numbers less the longest window. -/
def State.inBlocksNear (s : State) (n : Fin 8) : Prop :=
  ∃ b : Half, ∀ e ∈ s.schedule n, (e.inBlock - b).toNat < 32768 - 4096

/-- R98, R108: no two clips that are not EMPTY share a page; a clip's use count is the number of its namings in the
schedules, and one more if it is the fallback clip; and a used clip is not EMPTY. -/
structure ClipLaw (s : State) : Prop where
  pages : ∀ k m, k ≠ m → (s.clip k).state ≠ .empty → (s.clip m).state ≠ .empty →
    (s.clip k).basePage + (s.clip k).pages ≤ (s.clip m).basePage ∨
      (s.clip m).basePage + (s.clip m).pages ≤ (s.clip k).basePage
  uses : ∀ k, (s.clip k).useCount =
    (services.map fun n => ((s.schedule n).map fun e => e.clips.count k).sum).sum +
      if s.emitter.fallbackClip = some k then 1 else 0
  used : ∀ k, 0 < (s.clip k).useCount → (s.clip k).state ≠ .empty

/-- R119, R122: the depths sum to at most 4096; a channel's fill, with the cells of its fetch in flight, is at most its
depth; that fetch is the one read of its generation in flight; and a PARKED channel holds nothing. -/
structure PlayoutLaw (s : State) : Prop where
  depths : (s.channels.items.map Channel.depth).sum ≤ 4096
  fits : ∀ n, (s.channel n).queue.length + (s.channel n).inFlightCount ≤ (s.channel n).depth
  landed : ∀ n, (s.channel n).inFlight = false → (s.channel n).inFlightCount = 0
  current : ∀ n, ((s.clips.reads.filter fun r => decide (r.channel = n) && !s.staleRead r).map FetchRead.count) =
    if (s.channel n).inFlight = true then [(s.channel n).inFlightCount] else []
  parked : ∀ n, (s.channel n).state = .parked →
    (s.channel n).queue = [] ∧ (s.channel n).clips = [] ∧ (s.channel n).labelMap = none ∧
    (s.channel n).inFlight = false ∧ (s.channel n).exhausted = false ∧ (s.channel n).halted = false ∧
    (s.channel n).passMarkDue = false

/-- R52: a FREE slot holds no block and nothing of one. -/
def FreeSlotLaw (s : State) : Prop := ∀ i, (s.slot i).state = .free → s.slot i = Slot.free

/-- R52, R59, R62, R73: the Emission Queue holds each READY slot once and no other slot, no two queued stamps are equal,
stamps of held blocks are valid, and the one EMITTING slot is that of the current block, which is there in BLOCK only. -/
structure QueueLaw (s : State) : Prop where
  once : s.slots.queue.Nodup
  ready : ∀ i, i ∈ s.slots.queue ↔ (s.slot i).state = .ready
  stamps_differ : s.slots.queue.Pairwise fun i j => (s.slot i).stamp ≠ (s.slot j).stamp
  stamps_valid : ∀ i, (s.slot i).state ≠ .free → stampValid (s.slot i).stamp = true
  block_iff : s.emitter.state = .block ↔ s.emitter.current.isSome = true
  current_emitting : ∀ b, s.emitter.current = some b → (s.slot b.slot).state = .emitting
  emitting_current : ∀ i, (s.slot i).state = .emitting → ∃ b, s.emitter.current = some b ∧ b.slot = i

/-- The stamp of slot `j` is after the stamp of slot `i` (R7). -/
def State.after (s : State) (i j : Fin 256) : Prop := 0 < diff (s.slot j).stamp (s.slot i).stamp

/-- R62: along the Emission Queue each stamp is after the one before it. -/
def State.queueRises (s : State) : Prop :=
  ∀ (k : Nat) (i j : Fin 256), s.slots.queue[k]? = some i → s.slots.queue[k + 1]? = some j → s.after i j

/-- R62: each stamp of the Emission Queue is after every stamp before it. -/
def State.queueRisesThroughout (s : State) : Prop := s.slots.queue.Pairwise s.after

/-- R53, R58: from `s` to `t`, with the engine standing at `g`, the report that a feed's copy of a slot is BAD: the copy
takes the cells received; an OPEN slot whose other copy cannot give the block either, it being BAD or the stamp being
reached, is lost and returns to FREE; no other slot changes, nor the other port. -/
def BadReport (s t : State) (g : Engine) (f : Feed) (i : Fin 256) (received : Nat) : Prop :=
  let sl := (s.slot i).setCopy f ⟨.bad, received⟩
  let other := (s.slot i).copy (otherFeed f)
  let lost := sl.state = .opened ∧ other.state ≠ .good ∧ other.state ≠ .filling ∧
    (other.state = .bad ∨ 0 ≤ diff s.now sl.stamp)
  (lost → t.slot i = Slot.free ∧ t.slots.counts = { s.slots.counts with lost := s.slots.counts.lost + 1 } ∧
    t.engine = g.latch .blockDrop) ∧
  (¬lost → t.slot i = sl ∧ t.slots.counts = s.slots.counts ∧ t.engine = g) ∧
  (∀ j, j ≠ i → t.slot j = s.slot j) ∧ t.slots.queue = s.slots.queue ∧ t.port (otherFeed f) = s.port (otherFeed f)

/-- R61, R101, R136, R173: the part after a list of cells has been handed over, by kind, to the three intakes, each of
1,024 places: what finds no room is dropped, a CUE as a bad cue and an MGMT cell as an overflow. Each is counted as
handed over (log 13). -/
def State.handed (s : State) (cells : List Cell) : State :=
  let ofKind := fun (k : BitVec 3) => (cells.filter fun c => decide (c.kind = k)).map Cell.payload
  let room := fun (l : List Payload) => 1024 - l.length
  let cues := ofKind kindCue
  let mgmts := ofKind kindMgmt
  let loads := ofKind kindLoad
  let g := if room s.splice.intake < cues.length then s.engine.latch .cueRefused else s.engine
  { s with
    slots := { s.slots with counts := { s.slots.counts with
      cues := s.slots.counts.cues + BitVec.ofNat 32 cues.length
      mgmts := s.slots.counts.mgmts + BitVec.ofNat 32 mgmts.length
      loads := s.slots.counts.loads + BitVec.ofNat 32 loads.length } }
    splice := { s.splice with
      intake := s.splice.intake ++ cues.take (room s.splice.intake)
      badCues := s.splice.badCues + BitVec.ofNat 32 (cues.length - room s.splice.intake) }
    clips := { s.clips with intake := s.clips.intake ++ loads.take (room s.clips.intake) }
    engine := { g with
      intake := s.engine.intake ++ mgmts.take (room s.engine.intake)
      counts := { s.engine.counts with
        overflows := s.engine.counts.overflows + BitVec.ofNat 32 (mgmts.length - room s.engine.intake) } } }

/-- R158, R159: a running counter after one pulse. At value 1 it underflows: it is reloaded from its latch, counted, and
stopped in ONE_SHOT. -/
def Counter.afterPulse (c : Counter) : Counter :=
  if c.value = 1 then
    { c with value := c.latch, underflows := c.underflows + 1, running := decide (c.mode = .continuous) }
  else { c with value := c.value - 1 }

/-- R158, R159: counters in ascending number at one event of a source, with those of them that are pulsed and underflow
there. A running counter of the source is pulsed; so is one of source CASCADE where the one below it underflows, which
for the first of them is said by `below`. -/
def countersAt (src : CounterSource) : Bool → List Counter → List (Counter × Bool)
  | _, [] => []
  | below, c :: rest =>
    let pulsed := c.running && (decide (c.source = src) || (below && decide (c.source = .cascade)))
    let under := pulsed && decide (c.value = 1)
    (if pulsed then c.afterPulse else c, under) :: countersAt src under rest

/-- R158, R159: the four counters after one event of a source. -/
def bankAfter (src : CounterSource) (l : List Counter) : List Counter := (countersAt src false l).map Prod.fst

/-- R159: the counter numbered n underflows at one event of a source. -/
abbrev underflowsAt (src : CounterSource) (l : List Counter) (n : Nat) : Prop :=
  ((countersAt src false l).map Prod.snd)[n]? = some true

/-- R159: the counter numbered n underflows there and has a list for its action. -/
abbrev pushesAt (src : CounterSource) (l : List Counter) (n : Nat) : Prop :=
  underflowsAt src l n ∧ ∃ c x, l[n]? = some c ∧ c.action = some x

/-- R166, R167: what a push of list `l` makes of the runner and of the engine's latch. A RUNNING runner leaves it in the
queue or loses it; an IDLE one starts it, or faults an undefined one, at once, and takes a defined list that waits before
it. -/
def Pushed (r : ListRunner) (g : Engine) (l : Fin 16) (r' : ListRunner) (g' : Engine) : Prop :=
  let counts := { r.counts with started := r.counts.started + 1 }
  let runs := fun (l : Fin 16) (triggers : List (Fin 16)) => ∀ i : Fin 256, i.val = (r.descriptors.get l).first →
    r' = { r with
      triggers := triggers, counts := counts
      state := .running l (r.descriptors.get l).first (r.descriptors.get l).length 0 (r.store.get i) } ∧ g' = g
  (r.state ≠ .idle → r.triggers.length < 8 → r' = { r with triggers := r.triggers ++ [l] } ∧ g' = g) ∧
  (r.state ≠ .idle → 8 ≤ r.triggers.length →
    r' = { r with lastLost := some l, counts := { r.counts with triggersLost := r.counts.triggersLost + 1 } } ∧
    g' = g.latch .listFault) ∧
  (r.state = .idle → r.triggers = [] → (r.descriptors.get l).defined = true → runs l []) ∧
  (r.state = .idle → r.triggers = [] → (r.descriptors.get l).defined = false →
    r' = { r with counts := { counts with faults := counts.faults + 1 }, fault := some ⟨l, 0, .state⟩ } ∧
    g' = g.latch .listFault) ∧
  ∀ first rest, r.state = .idle → r.triggers = first :: rest → rest.length < 8 →
    (r.descriptors.get first).defined = true → runs first (rest ++ [l])

/-- R123, R124: the cell queued for a fetched cell, on a channel's label map and base and a clip's origin: a null cell for
one that is not DATA of clip label 0-3 or that the map leaves as none; else the cell on its output label, its unit time
re-based when unit start is set and it is valid. -/
def finishedCell (c : Channel) (origin : Stamp) (x : Cell) : Cell :=
  match c.labelMap, index? 4 x.label.toNat with
  | some m, some i =>
    match cellIsData x, m.get i with
    | true, some l =>
      { x with
        label := l
        unitTime := if x.unitStart = true ∧ stampValid x.unitTime = true then addTicks c.base (diff x.unitTime origin)
          else x.unitTime }
    | _, _ => nullCell
  | _, _ => nullCell

/-! ### Fetches, and cells that leave (R81 to R85, R89, R122, R128, R151, R152) -/

/-- R122: the conditions under which channel `c` issues a fetch. -/
def Channel.fetches (c : Channel) : Prop :=
  c.state ≠ .parked ∧ c.inFlight = false ∧ c.exhausted = false ∧ c.halted = false ∧
  (c.state = .priming → c.queue.length < c.depth) ∧ (c.state = .serving → c.queue.length ≤ c.refill)

/-- R122: from `s` to `t` channel `n`, standing as `c`, has been tested for a fetch: one of the clip at its fetch pointer
when the conditions hold, and none otherwise or where there is no cell to ask for. -/
def FetchTested (s t : State) (n : Fin 9) (c : Channel) : Prop :=
  let asked := fun (k : Fin 128) => min 32 (min ((s.clip k).cells - c.cellIndex) (c.depth - c.queue.length))
  (∀ k, c.clips[c.listIndex]? = some k → c.fetches → 0 < asked k →
    t.channel n = { c with inFlight := true, inFlightCount := asked k } ∧
    t.clips.reads =
      s.clips.reads ++ [⟨n, k, c.cellIndex, asked k, (s.clip k).basePage, c.generation, false⟩]) ∧
  (¬c.fetches ∨ (∀ k, c.clips[c.listIndex]? = some k → asked k = 0) →
    t.channel n = c ∧ t.clips.reads = s.clips.reads)

/-- R128: from `s` to `t` the head of channel `n` has been taken, or an empty queue has underrun, and the channel tested
for a fetch. -/
def TakeMade (s t : State) (n : Fin 9) : Prop :=
  let c := s.channel n
  let served : ChannelState := if c.state = .parked then .parked else .serving
  (∀ x more, c.queue = x :: more → FetchTested s t n { c with queue := more, state := served }) ∧
  (c.queue = [] → FetchTested s t n { c with underruns := c.underruns + 1, state := served }) ∧
  (∀ k, k ≠ n → t.channel k = s.channel k) ∧ t.clips = { s.clips with reads := t.clips.reads }

/-- A null cell has left, and touched no Label Table record (R85). -/
def NullCellSent (s t : State) : Prop := t.out.cell = some nullCell ∧ ∀ l, t.label l = s.label l

/-- R84: cell `c` has left as a passed cell. -/
def PassedCellSent (s t : State) (c : Cell) : Prop :=
  t.out.cell = some { c with disc := c.disc || (s.label c.label).pending } ∧
  t.label c.label = { s.label c.label with
    lastSeq := some c.seq, pending := false, emitted := (s.label c.label).emitted + 1 } ∧
  ∀ l, l ≠ c.label → t.label l = s.label l

/-- R85: cell `x` of a Playout Queue has left: a DATA cell with the sequence after its label's last, and with the
discontinuity flag given; a null entry as it is. -/
def QueuedCellSent (s t : State) (x : Cell) (flag : Bool) : Prop :=
  (cellIsData x = true →
    let q : BitVec 6 := match (s.label x.label).lastSeq with | some k => k + 1 | none => 0
    t.out.cell = some { x with seq := q, disc := flag, spare := 0 } ∧
    t.label x.label = { s.label x.label with lastSeq := some q, emitted := (s.label x.label).emitted + 1 } ∧
    ∀ l, l ≠ x.label → t.label l = s.label l) ∧
  (cellIsData x = false → t.out.cell = some x ∧ ∀ l, t.label l = s.label l)

/-- R89: the cell of a moment in FALLBACK has left: the head of Playout Queue 8, a new pass of the clip setting the
discontinuity flag, or a null cell. -/
def FallbackCellSent (s t : State) : Prop :=
  TakeMade s t 8 ∧
  (∀ x more, (s.channel 8).queue = x :: more → QueuedCellSent s t x.cell x.passMark) ∧
  ((s.channel 8).queue = [] → NullCellSent s t)

/-- R151, R152: cell `c` of a label of service `n`, due at `due` in block `b`, has been offered to the Splice Unit, and it
or what fills its place has left. -/
def ServiceCellSent (s t : State) (n : Fin 8) (b : Half) (due : Stamp) (c : Cell) : Prop :=
  let ch := serviceChannel n
  (∀ e rest, s.schedule n = e :: rest → e.state = .active → windowHolds e.inBlock e.outBlock b = true →
    e.cancelRequested = false →
    let first : Option Stamp := some (e.firstCell.getD due)
    let nulled : ScheduleEntry := { e with cellsNull := e.cellsNull + 1, firstCell := first }
    (e.faulted = true → NullCellSent s t ∧ t.schedule n = nulled :: rest ∧ t.channels = s.channels ∧ t.clips = s.clips) ∧
    (e.faulted = false → (s.channel ch).queue = [] →
      NullCellSent s t ∧ t.schedule n = nulled :: rest ∧ TakeMade s t ch) ∧
    (∀ x more, e.faulted = false → (s.channel ch).queue = x :: more →
      let ended := if x.clipEnd = true then e.clipsCompleted + 1 else e.clipsCompleted
      QueuedCellSent s t x.cell false ∧ TakeMade s t ch ∧
      (cellIsData x.cell = true → t.schedule n =
        { e with cellsFromClips := e.cellsFromClips + 1, clipsCompleted := ended, firstCell := first } :: rest) ∧
      (cellIsData x.cell = false → t.schedule n = { nulled with clipsCompleted := ended } :: rest))) ∧
  ((∀ e, (s.schedule n).head? = some e →
      e.state ≠ .active ∨ windowHolds e.inBlock e.outBlock b = false ∨ e.cancelRequested = true) →
    PassedCellSent s t c ∧ t.channels = s.channels ∧ t.clips = s.clips ∧ t.splice = s.splice) ∧
  (∀ k, k ≠ n → t.schedule k = s.schedule k) ∧ t.splice = { s.splice with schedules := t.splice.schedules }

/-- R81: cell `c` of block `b`, due at `due`, has been classified, and one cell has left. -/
def BlockCellSent (s t : State) (b : Half) (due : Stamp) (c : Cell) : Prop :=
  let role := (s.label c.label).role
  (cellIsData c = false ∨ role = .drop → NullCellSent s t ∧ t = { s with out := t.out }) ∧
  (cellIsData c = true → role = .pass →
    PassedCellSent s t c ∧ t = { s with emitter := t.emitter, out := t.out }) ∧
  (∀ n : Fin 8, cellIsData c = true → role = .service → (s.label c.label).service.toNat = n.val →
    ServiceCellSent s t n b due c) ∧
  t.out = { s.out with cell := t.out.cell, cells := s.out.cells + 1 } ∧
  t = { s with
    emitter := { s.emitter with labels := t.emitter.labels }, out := t.out, channels := t.channels
    clips := t.clips, splice := t.splice }

/-! ### Entries that leave, and block notices (R145 to R153) -/

/-- An entry that leaves a schedule, with the outcome and the reason its rule gives (R149). -/
abbrev Departure := ScheduleEntry × BreakOutcome × BreakReason

/-- R149, R153: the As-Run Log after entries have left in the order listed, each with its service, the last block noticed
standing at `b`. -/
def Splice.recorded (p : Splice) (b : Option Half) (gone : List (Fin 8 × Departure)) : List AsRunRecord :=
  if gone = [] then p.asRun
  else ((gone.mapIdx fun k x => (⟨p.lastAsRun + BitVec.ofNat 16 (k + 1), x.1, x.2.1.breakId, x.2.1.inBlock,
    x.2.1.outBlock, x.2.2.1, x.2.2.2, x.2.1.clipsCompleted, x.2.1.cellsFromClips, x.2.1.cellsNull, x.2.1.firstCell,
    b⟩ : AsRunRecord)).reverse ++ p.asRun).take 64

/-- R129, R149: the entry had been primed: it is ARMED or ACTIVE, or holds the generation of an earlier prime. -/
abbrev ScheduleEntry.hadPrime (e : ScheduleEntry) : Prop :=
  e.state = .armed ∨ e.state = .active ∨ e.primeGeneration.isSome = true

/-- R129: a channel parked by the last of a number of flushes. -/
def Channel.parkedBy (c : Channel) (flushes : Nat) : Channel :=
  { c with
    state := .parked, queue := [], generation := c.generation + BitVec.ofNat 32 flushes, clips := [], labelMap := none
    listIndex := 0, cellIndex := 0, passMarkDue := false, inFlight := false, inFlightCount := 0, exhausted := false
    halted := false }

/-- R146, step 2: the entry is ARMING, or it is PENDING and block `b` is within the arm lead, so that it becomes so. -/
def State.armingBy (s : State) (n : Fin 8) (b : Half) (e : ScheduleEntry) : Prop :=
  e.state = .arming ∨
    (e.state = .pending ∧ precedesEq (e.inBlock - BitVec.ofNat 16 (s.service n).armLead) b = true)

/-- R146, step 3: every clip of the entry's list is READY. -/
def State.listReady (s : State) (e : ScheduleEntry) : Prop := ∀ k ∈ e.clips, (s.clip k).state = .ready

/-- R145 to R147: the head `e` of service `n` stays at the notice of block `b`, and stands as `x` after it; `primed` says
that its channel, of generation `g` before, is primed for it there. -/
def HeadStays (s : State) (n : Fin 8) (b : Half) (g : Word) (e x : ScheduleEntry) (primed : Bool) : Prop :=
  let holds := windowHolds e.inBlock e.outBlock b
  let armed : EntryState := if holds = true then .active else .armed
  (e.state = .active → e.cancelRequested = false ∧ holds = true ∧ x = e ∧ primed = false) ∧
  (e.state ≠ .active → precedesEq e.outBlock b = false ∧
    (e.state = .armed → x = { e with state := armed } ∧ primed = false) ∧
    (s.armingBy n b e → s.listReady e → x = { e with state := armed, primeGeneration := some (g + 1) } ∧ primed = true) ∧
    (s.armingBy n b e → ¬s.listReady e → holds = false ∧ x = { e with state := .arming } ∧ primed = false) ∧
    (e.state = .pending → ¬s.armingBy n b e → x = e ∧ primed = false))

/-- R145 to R147: the head `e` of service `n` leaves at the notice of block `b`, with an outcome and a reason. -/
def HeadLeaves (s : State) (n : Fin 8) (b : Half) (e : ScheduleEntry) (o : BreakOutcome) (r : BreakReason) : Prop :=
  let holds := windowHolds e.inBlock e.outBlock b
  (e.state = .active →
    (e.cancelRequested = true ∧ o = .cancelled ∧ r = .none) ∨
    (e.cancelRequested = false ∧ holds = false ∧
      (e.faulted = true → o = .aborted ∧ r = .clipFault) ∧
      (e.faulted = false → r = .none ∧ o = if e.clipsCompleted = e.clips.length then .complete else .truncated))) ∧
  (e.state ≠ .active → o = .missed ∧
    ((precedesEq e.outBlock b = true ∧ r = .blocksMissing) ∨
      (precedesEq e.outBlock b = false ∧ s.armingBy n b e ∧ ¬s.listReady e ∧ holds = true ∧ r = .clipNotReady)))

/-- R145: a service's schedule at the notice of block `b`, its channel at generation `g`: the entries that leave from the
head onward, the schedule left, and whether the channel is primed for its head. -/
inductive Noticed (s : State) (n : Fin 8) (b : Half) :
    Word → List ScheduleEntry → List Departure → List ScheduleEntry → Bool → Prop
  | empty (g : Word) : Noticed s n b g [] [] [] false
  | stays (g : Word) (e x : ScheduleEntry) (rest : List ScheduleEntry) (primed : Bool) :
    HeadStays s n b g e x primed → Noticed s n b g (e :: rest) [] (x :: rest) primed
  | leaves (g : Word) (e : ScheduleEntry) (o : BreakOutcome) (r : BreakReason) (rest left : List ScheduleEntry)
    (gone : List Departure) (primed : Bool) : HeadLeaves s n b e o r →
    Noticed s n b (if e.hadPrime then g + 1 else g) rest gone left primed →
    Noticed s n b g (e :: rest) ((e, o, r) :: gone) left primed

/-- R148: the head `e` of service `n` stays at a head test against block `b`, its channel at generation `g`, and stands
as `x` after it; `primed` says that the channel is primed for it there. -/
def HeadHolds (s : State) (n : Fin 8) (b : Half) (g : Word) (e x : ScheduleEntry) (primed : Bool) : Prop :=
  (e.state = .active → x = e ∧ primed = false) ∧
  (e.state ≠ .active → precedesEq e.outBlock b = false ∧
    (e.state = .armed → x = e ∧ primed = false) ∧
    (s.armingBy n b e → s.listReady e →
      x = { e with state := .armed, primeGeneration := some (g + 1) } ∧ primed = true) ∧
    (s.armingBy n b e → ¬s.listReady e → x = { e with state := .arming } ∧ primed = false) ∧
    (e.state = .pending → ¬s.armingBy n b e → x = e ∧ primed = false))

/-- R148: a service's schedule at a head test against block `b`, its channel at generation `g`: the entries that leave
from the head onward, their windows passed, the schedule left, and whether the channel is primed for its head. -/
inductive HeadTested (s : State) (n : Fin 8) (b : Half) :
    Word → List ScheduleEntry → List Departure → List ScheduleEntry → Bool → Prop
  | empty (g : Word) : HeadTested s n b g [] [] [] false
  | stays (g : Word) (e x : ScheduleEntry) (rest : List ScheduleEntry) (primed : Bool) :
    HeadHolds s n b g e x primed → HeadTested s n b g (e :: rest) [] (x :: rest) primed
  | leaves (g : Word) (e : ScheduleEntry) (rest left : List ScheduleEntry) (gone : List Departure) (primed : Bool) :
    e.state ≠ .active → precedesEq e.outBlock b = true →
    HeadTested s n b (if e.hadPrime then g + 1 else g) rest gone left primed →
    HeadTested s n b g (e :: rest) ((e, .missed, .blocksMissing) :: gone) left primed

/-- R121, R122: the first fetch of channel `n`, primed for entry `x` with this generation: one read of its first clip, if
that asks for a cell. -/
def State.firstFetch (s : State) (n : Fin 9) (x : ScheduleEntry) (generation : Word) : List FetchRead :=
  match x.clips.head? with
  | some k =>
    let count := min 32 (min (s.clip k).cells (s.channel n).depth)
    if 0 < count then [⟨n, k, 0, count, (s.clip k).basePage, generation, false⟩] else []
  | none => []

/-- R149, R109, R86, R121, R122, R129, R153: from `s` to `t`, with block `b` the last noticed in `t`, the entries `gone`
of each service have left, in order of service and then from the head, with their records, releases and pending flags
and the flushes of the channels; and the channel of each service in `primed` is primed for the head of its schedule. The
reads in flight are those before and then the first fetches of the channels primed, in order of service. -/
def DeparturesTaken (s t : State) (b : Half) (gone : Fin 8 → List Departure) (primed : Fin 8 → Bool) : Prop :=
  let all := services.flatMap fun n => (gone n).map fun x => (n, x)
  let fetched := fun (n : Fin 8) =>
    match t.schedule n with
    | x :: _ =>
      if primed n = true then s.firstFetch (serviceChannel n) x (t.channel (serviceChannel n)).generation else []
    | [] => []
  (∀ n,
    let c := s.channel (serviceChannel n)
    let d := t.channel (serviceChannel n)
    let flushes := (gone n).countP fun x => decide x.1.hadPrime
    (primed n = false → d = if flushes = 0 then c else c.parkedBy flushes) ∧
    (primed n = true → ∀ x, (t.schedule n).head? = some x →
      d = { c.parkedBy (flushes + 1) with
        state := .priming, clips := x.clips, labelMap := some x.labelMap, base := x.pt
        inFlight := decide (fetched n ≠ []), inFlightCount := ((fetched n).map FetchRead.count).sum })) ∧
  t.channel 8 = s.channel 8 ∧
  t.splice = { s.splice with
    schedules := t.splice.schedules, lastNoticed := some b
    lastAsRun := s.splice.lastAsRun + BitVec.ofNat 16 all.length, asRun := s.splice.recorded (some b) all } ∧
  (∀ k, t.clip k = { s.clip k with
    useCount := (s.clip k).useCount - (all.map fun x => x.2.1.clips.count k).sum }) ∧
  t.clips.reads = s.clips.reads ++ services.flatMap fetched ∧
  t.clips = { s.clips with entries := t.clips.entries, reads := t.clips.reads } ∧
  (∀ l, t.label l =
    if (s.label l).role = .service ∧ ∃ x ∈ all, (s.label l).service.toNat = x.1.val ∧ x.2.1.state = .active ∧
      x.2.1.cancelRequested = false then { s.label l with pending := true } else s.label l) ∧
  (t.engine.latched.getLsbD 17 = true ↔ s.engine.latched.getLsbD 17 = true ∨ all ≠ [])

/-- R145 to R149: from `s` to `t` the Splice Unit has taken the notice of block `b`: each service's schedule by itself,
service 0 to 7. -/
def NoticeTaken (s t : State) (b : Half) : Prop :=
  ∃ (gone : Fin 8 → List Departure) (primed : Fin 8 → Bool),
    (∀ n, Noticed s n b (s.channel (serviceChannel n)).generation (s.schedule n) (gone n) (t.schedule n) (primed n)) ∧
    DeparturesTaken s t b gone primed

/-- R78, R80: the Splice Unit has taken a run of block notices, one after the other. -/
inductive NoticesTaken : State → List Half → State → Prop
  | none (s : State) : NoticesTaken s [] s
  | next (s u t : State) (b : Half) (rest : List Half) : NoticeTaken s u b → NoticesTaken u rest t →
    NoticesTaken s (b :: rest) t

/-- R90: from `s` to `t`, of what the Splice Unit reads and acts on, only what the end of fallback does, when it ends:
channel 8 flushed, and the labels of the fallback map pending. -/
def FallbackLeft (s t : State) (ends : Prop) [Decidable ends] : Prop :=
  t.splice = s.splice ∧ t.clips = s.clips ∧
  (∀ k, t.channel k = if ends ∧ k = 8 then (s.channel 8).parkedBy 1 else s.channel k) ∧
  ∀ l, t.label l =
    if ends ∧ some l ∈ s.emitter.fallbackMap.items then { s.label l with pending := true } else s.label l

/-- R148: from `s` to `t` the head tests of service `n` have been made, against the last block noticed; with none noticed
they change nothing. -/
def HeadTestMade (s t : State) (n : Fin 8) : Prop :=
  (s.splice.lastNoticed = none → t = s) ∧
  ∀ b, s.splice.lastNoticed = some b →
    ∃ (gone : List Departure) (primed : Bool),
      HeadTested s n b (s.channel (serviceChannel n)).generation (s.schedule n) gone (t.schedule n) primed ∧
      (∀ k, k ≠ n → t.schedule k = s.schedule k) ∧
      DeparturesTaken s t b (fun k => if k = n then gone else []) (fun k => decide (k = n) && primed) ∧
      t = { s with
        splice := t.splice, channels := t.channels, clips := t.clips
        engine := if gone = [] then s.engine else s.engine.latch .breakDone }

/-- R149, R129, R86, R109, R153: from `s` to `u` the entry `e` of service `n` has left, all but for its place in the
schedule, with an outcome and a reason. -/
def EntryLeft (s u : State) (n : Fin 8) (e : ScheduleEntry) (o : BreakOutcome) (r : BreakReason) : Prop :=
  (∀ k, u.channel k = if k = serviceChannel n ∧ e.hadPrime then (s.channel k).parkedBy 1 else s.channel k) ∧
  (∀ k, u.clip k = { s.clip k with useCount := (s.clip k).useCount - e.clips.count k }) ∧
  (∀ l, u.label l =
    if (s.label l).role = .service ∧ (s.label l).service.toNat = n.val ∧ e.state = .active ∧ e.cancelRequested = false
    then { s.label l with pending := true } else s.label l) ∧
  u.splice = { s.splice with
    schedules := u.splice.schedules, lastAsRun := s.splice.lastAsRun + 1
    asRun := s.splice.recorded s.splice.lastNoticed [(n, e, o, r)] } ∧
  u = { s with
    splice := u.splice, channels := u.channels, engine := s.engine.latch .breakDone
    clips := { s.clips with entries := u.clips.entries }, emitter := { s.emitter with labels := u.emitter.labels } }

/-- R143: from `s` to `t` the entry `e` that a cancel found in the schedule of service `n` is cancelled: one on air has its
cancel requested, once, and its labels pending; any other leaves at once, and a new head is tested (R148). -/
def CancelTaken (s t : State) (n : Fin 8) (e : ScheduleEntry) : Prop :=
  (e.state = .active → e.cancelRequested = true → t = s) ∧
  (e.state = .active → e.cancelRequested = false →
    t.schedule n =
      ((s.schedule n).map fun x => if x.breakId = e.breakId then { x with cancelRequested := true } else x) ∧
    (∀ k, k ≠ n → t.schedule k = s.schedule k) ∧
    (∀ l, t.label l = if (s.label l).role = .service ∧ (s.label l).service.toNat = n.val
      then { s.label l with pending := true } else s.label l) ∧
    t = { s with
      splice := { s.splice with schedules := t.splice.schedules }
      emitter := { s.emitter with labels := t.emitter.labels } }) ∧
  (e.state ≠ .active → ∃ u, EntryLeft s u n e .cancelled .none ∧
    u.schedule n = ((s.schedule n).filter fun x => decide (x.breakId ≠ e.breakId)) ∧
    (∀ k, k ≠ n → u.schedule k = s.schedule k) ∧
    ((s.schedule n).head?.map ScheduleEntry.breakId ≠ some e.breakId → t = u) ∧
    ((s.schedule n).head?.map ScheduleEntry.breakId = some e.breakId → HeadTestMade u t n))

/-- R156: the entries that leave at a TRAFFIC reset, service 0 to 7 and each schedule from the head onward. -/
def State.leaving (s : State) : List (Fin 8 × Departure) :=
  services.flatMap fun n => (s.schedule n).map fun e => (n, e, .reset, .none)

/-! ### Mute reasons (R69 to R71) -/

/-- R70, R71: from `s` to `t` the mute reasons have become `r`. A reason that joins an empty set mutes: a block on air is
cut, its slot freed and its cells to come counted unsent, and fallback ends. A set that empties gives IDLE. -/
def ReasonsTaken (s t : State) (r : MuteReasons) : Prop :=
  let old := s.emitter.reasons
  (old.held = r.held → t = { s with emitter := { s.emitter with reasons := r } }) ∧
  (old.held = true → r.held = false →
    t = { s with
      emitter := { s.emitter with reasons := r, state := .idle, timer := 0 }, engine := s.engine.latch .mute }) ∧
  (old.held = false → r.held = true →
    (s.emitter.state ≠ .block → t.slots = s.slots ∧ (∀ f, t.port f = s.port f) ∧
      t.emitter.counts = s.emitter.counts ∧ t.emitter.current = s.emitter.current) ∧
    (∀ b, s.emitter.state = .block → s.emitter.current = some b →
      t.slot b.slot = Slot.free ∧ (∀ i, i ≠ b.slot → t.slot i = s.slot i) ∧
      t.slots = { s.slots with slots := t.slots.slots } ∧
      (∀ f, t.port f =
        if ((s.slot b.slot).copy f).state = .filling then (s.port f).withdrawn b.slot else s.port f) ∧
      t.emitter.current = none ∧
      t.emitter.counts = { s.emitter.counts with
        unsent := s.emitter.counts.unsent + BitVec.ofNat 32 (b.count - (s.emitter.phase.cell + 1)) }) ∧
    (s.emitter.state = .fallback → t.channel 8 = (s.channel 8).parkedBy 1 ∧ (∀ k, k ≠ 8 → t.channel k = s.channel k) ∧
      ∀ l, t.label l =
        if some l ∈ s.emitter.fallbackMap.items then { s.label l with pending := true } else s.label l) ∧
    (s.emitter.state ≠ .fallback → t.channels = s.channels ∧ t.emitter.labels = s.emitter.labels) ∧
    t.emitter = { s.emitter with
      reasons := r, state := .muted, current := t.emitter.current, counts := t.emitter.counts
      labels := t.emitter.labels } ∧
    t = { s with
      portA := t.portA, portB := t.portB, slots := t.slots, emitter := t.emitter, channels := t.channels
      engine := s.engine.latch .mute })

/-! ### The events of a tick (R17, R18, R163, R182) -/

/-- R163: the alarm is armed, and the clock at a second and a tick has reached its target. -/
def Alarm.reachedAt (a : Alarm) (second : Word) (tick : Nat) : Prop :=
  let past := (second - a.targetSeconds).toNat
  a.armed = true ∧ ((1 ≤ past ∧ past ≤ 2147483647) ∨ (second = a.targetSeconds ∧ a.targetTicks ≤ tick))

/-- R163: from `s` to `t` the alarms have been tested at a second and a tick. -/
def AlarmsTested (s t : State) (second : Word) (tick : Nat) : Prop :=
  ∀ n,
    let a := s.alarms.get n
    (a.reachedAt second tick →
      t.alarms.get n = { a with armed := false, fires := a.fires + 1 } ∧ t.engine.latched.getLsbD 22 = true) ∧
    (¬a.reachedAt second tick → t.alarms.get n = a)

/-- R18, R47, R48, R53, R58, R87, R88, R158, R159, R163: from `s` to `t` the millisecond event of a tick has been taken,
the clock at that second and tick: by both ports, the Slot Table, the fallback timer, the counters, which stand at `bank`,
and the alarms. `here` says that the clock stood at the tick before, so that a port's note of a TIMING cell holds there
(log 32). -/
def MillisecondWork (s t : State) (second : Word) (tick : Nat) (here : Bool) (bank : List Counter) : Prop :=
  let now : Stamp := second.extractLsb' 0 8 ++ BitVec.ofNat 24 tick
  let atOnce := fun (f : Feed) => here = true ∧ (s.port f).forestalled = true
  let expires := fun (f : Feed) => (s.port f).state = .tracking ∧ ¬atOnce f ∧ (s.port f).silence = 1
  let ended := fun (f : Feed) (i : Fin 256) =>
    match (s.port f).current with
    | some r => if expires f ∧ r.slot = i ∧ s.reportFits f r = true then (⟨.bad, (s.port f).received⟩ : Copy)
      else (s.slot i).copy f
    | none => (s.slot i).copy f
  let settled := fun (i : Fin 256) => ({ s.slot i with copyA := ended .A i, copyB := ended .B i } : Slot)
  let lost := fun (i : Fin 256) =>
    let sl := settled i
    sl.state = .opened ∧ sl.copyA.state ≠ .good ∧ sl.copyA.state ≠ .filling ∧ sl.copyB.state ≠ .good ∧
      sl.copyB.state ≠ .filling ∧ ((sl.copyA.state = .bad ∧ sl.copyB.state = .bad) ∨ 0 ≤ diff now sl.stamp)
  let allowed := s.emitter.fallbackEnable = true ∧
    (∃ n, s.emitter.fallbackClip = some n ∧ (s.clip n).state = .ready) ∧
    (s.time.state = .locked ∨ s.time.state = .holdover)
  let waits := s.emitter.state = .idle ∧ s.emitter.timer + 1 < s.emitter.fallbackDelay
  let stands := s.emitter.state = .idle ∧ s.emitter.fallbackDelay ≤ s.emitter.timer + 1
  (∀ f,
    let p := s.port f
    (expires f → t.port f = { p with
      state := .lost, silence := 0, current := none, forestalled := false
      counts := if p.current.isSome then { p.counts with short := p.counts.short + 1 } else p.counts } ∧
      t.engine.latched.getLsbD (feedIndex f) = true) ∧
    (p.state = .tracking → ¬atOnce f → p.silence ≠ 1 →
      t.port f = { p with silence := p.silence - 1, forestalled := false }) ∧
    (p.state = .tracking → atOnce f → t.port f = { p with forestalled := false }) ∧
    (p.state ≠ .tracking → t.port f = { p with forestalled := p.forestalled && here })) ∧
  (∀ i, (lost i → t.slot i = Slot.free) ∧ (¬lost i → t.slot i = settled i)) ∧
  t.slots = { s.slots with
    slots := t.slots.slots
    counts := { s.slots.counts with
      lost := s.slots.counts.lost + BitVec.ofNat 32 ((List.finRange 256).countP fun i => decide (lost i)) } } ∧
  ((∃ i, lost i) → t.engine.latched.getLsbD Event.blockDrop.position = true) ∧
  t.counters.items = bankAfter .millisecond bank ∧
  (∀ n : Fin 4, underflowsAt .millisecond bank n → t.engine.latched.getLsbD (18 + n.val) = true) ∧
  AlarmsTested s t second tick ∧
  (waits → t.emitter = { s.emitter with timer := s.emitter.timer + 1 }) ∧
  (stands → ¬allowed → t.emitter = { s.emitter with timer := s.emitter.fallbackDelay }) ∧
  (s.emitter.state ≠ .idle → t.emitter = s.emitter) ∧
  (¬(stands ∧ allowed) → t.channels = s.channels ∧ t.clips = s.clips) ∧
  (stands → allowed → ∀ n, s.emitter.fallbackClip = some n →
    t.emitter = { s.emitter with
      state := .fallback, timer := s.emitter.fallbackDelay
      counts := { s.emitter.counts with fallbackEntries := s.emitter.counts.fallbackEntries + 1 } } ∧
    t.engine.latched.getLsbD 12 = true ∧
    FetchTested s t 8 { (s.channel 8).parkedBy 1 with
      state := .priming, clips := [n], labelMap := some s.emitter.fallbackMap, base := now } ∧
    t.clips = { s.clips with reads := t.clips.reads } ∧ ∀ k, k ≠ 8 → t.channel k = s.channel k) ∧
  t.out = s.out ∧ t.delay = s.delay ∧ t.clips.pages = s.clips.pages ∧ t.splice = s.splice ∧ t.feeds = s.feeds ∧
  t.pins = s.pins

/-- R159, R163: no list is pushed at the millisecond event of a tick, by the counters, which stand at `bank`, or an
alarm. -/
def NothingPushed (s : State) (second : Word) (tick : Nat) (bank : List Counter) : Prop :=
  (∀ n, ¬pushesAt .millisecond bank n) ∧
  ∀ n, (s.alarms.get n).reachedAt second tick → (s.alarms.get n).list = none

/-- R159: the engine after one event of source SECOND at the counters: the event of each that underflows is latched. -/
def Engine.afterSecond (g : Engine) (bank : List Counter) : Engine :=
  (List.finRange 4).foldl (fun g n => if underflowsAt .second bank n.val then g.latch (.counter n) else g) g

/-- R182, R183, R189: from `g` to `e` a second boundary has been taken at a time: a new set that is not empty is queued as
an EVENT report, or dropped by a full queue, and is then empty of what it held; an empty one queues nothing. -/
def BoundaryReported (g e : Engine) (now : Stamp) : Prop :=
  let data := be32 (g.latched.setWidth 32) ++ be32 (g.fresh.setWidth 32) ++ be32 now
  let k := g.counts
  (g.fresh = 0 → e.reports = g.reports ∧ e.droppedFlag = g.droppedFlag ∧ e.counts = k) ∧
  (g.fresh ≠ 0 → g.reports.length < 16 →
    e.reports = g.reports ++
      [{ siteId := g.siteId, kind := .event, dropped := g.droppedFlag, source := .intake, tag := 0, code := 0,
         status := .ok, part := 0, parts := 0, data := data }] ∧
    e.droppedFlag = false ∧ e.counts = { k with events := k.events + 1, queued := k.queued + 1 }) ∧
  (g.fresh ≠ 0 → 16 ≤ g.reports.length →
    e.reports = g.reports ∧ e.droppedFlag = true ∧
    e.counts = { k with events := k.events + 1, dropped := k.dropped + 1 }) ∧
  (g.fresh &&& ~~~g.latched = 0 → e.fresh &&& g.fresh = 0)

/-! ### Terms of the commands -/

/-- The engine with the one-part reply to a command from a cell queued (R174, R183). -/
def Engine.answered (g : Engine) (tag : Half) (code : Byte) (st : Status) (data : List Byte) : Engine :=
  g.queueReport
    { siteId := g.siteId, kind := .reply, dropped := false, source := .intake, tag := tag, code := code, status := st,
      part := 1, parts := 1, data := data }

/-- R120: the answer to a WRITE that carries a depth and a refill mark for channel `n`: the three tests in their order. -/
def DepthAnswer (s : State) (n : Fin 9) (depth refill : Nat) (st : Status) : Prop :=
  let c := s.channel n
  let bad := ¬64 ∣ depth ∨ depth < 64 ∨ 2048 < depth ∨ depth < refill + 32
  let busy := (depth ≠ c.depth ∨ refill ≠ c.refill) ∧ c.state ≠ .parked
  let full := 4096 < ((List.finRange 9).map fun k => if k = n then depth else (s.channel k).depth).sum
  st = if bad then .badField else if busy then .busy else if full then .full else .ok

/-- The state with a command from a cell taken and counted (R173, R186). -/
def State.tookCell (s : State) : State := { s with engine := s.engine.counted .intake }

/-- R175, R190: the bytes of a written entry that a READ shows as written. Left out are the reserved bytes, those a WRITE
does not set, the clip numbers past a break's count, a counter latch of 0 (R157), and the figures of a list undefined
(R165). -/
def writtenBytes (space : Byte) (entry : List Byte) : List Nat :=
  match space.toNat with
  | 1 => [0, 1]
  | 2 => List.range 6
  | 3 => List.range (4 + (byteAt entry 3).toNat) ++ List.range' 8 8
  | 9 => (List.range 40).erase 25
  | 10 => (if (halfAt entry 0).toNat = 0 then [] else [0, 1]) ++ [4, 5, 7]
  | 12 => if byteAt entry 0 = 1 then [0, 1, 2] else [0]
  | 13 => (List.range 68).erase 3
  | _ => []

/-- The origin and the command of a row that is a management command. -/
def commandOf (i : Instr) : Option (Origin × Command) :=
  match i with
  | .feedCellArrives _ _ _ => none
  | .millisecondEvent => none
  | .secondBoundary => none
  | .holdoverExpiry => none
  | .silenceExpiry _ => none
  | .markWindowOpen => none
  | .missedMark => none
  | .secondMark _ _ _ => none
  | .refClockLoss => none
  | .refClockResume => none
  | .resetLine _ => none
  | .cellTime _ => none
  | .blockStart _ => none
  | .blockDiscard => none
  | .fallbackTimerExpiry => none
  | .fallbackEntry => none
  | .fetchReadCompletes _ _ => none
  | .loadCellTaken _ => none
  | .cueTaken => none
  | .cancelBreak o service id => some (o, .cancelBreak service id)
  | .mgmtCellTaken => none
  | .unknownCommand o code => some (o, .unknown code)
  | .write o space index entry => some (o, .write space index (takeEntry space entry))
  | .writeLabelTable o index entry => some (o, .write 1 index (takeEntry 1 entry))
  | .writeServiceTable o index entry => some (o, .write 2 index (takeEntry 2 entry))
  | .writeBreakMap o index entry => some (o, .write 3 index (takeEntry 3 entry))
  | .writeSiteSettings o index entry => some (o, .write 9 index (takeEntry 9 entry))
  | .writeCounters o index entry => some (o, .write 10 index (takeEntry 10 entry))
  | .writeListDescriptors o index entry => some (o, .write 12 index (takeEntry 12 entry))
  | .writeListStore o index entry => some (o, .write 13 index (takeEntry 13 entry))
  | .read o space count first => some (o, .read space count first)
  | .describe o space => some (o, .describe space)
  | .clipDefine o clip base pages cells org duration check =>
    some (o, .clipDefine clip base pages cells org duration check)
  | .clipRelease o clip => some (o, .clipRelease clip)
  | .clipFault o => some (o, .clipFault)
  | .counterStart o n => some (o, .counter n 1)
  | .counterStop o n => some (o, .counter n 2)
  | .counterLoad o n => some (o, .counter n 3)
  | .counterUnderflow _ => none
  | .alarmArm o alarm list target => some (o, .alarmArm alarm list target)
  | .alarmDisarm o alarm => some (o, .alarmDisarm alarm)
  | .alarmFires _ => none
  | .runList o list => some (o, .runList list)
  | .triggerTaken => none
  | .muteOn o => some (o, .mute 1)
  | .muteOff o => some (o, .mute 2)
  | .eventMaskSet o events => some (o, .eventMask 1 events)
  | .eventMaskClear o events => some (o, .eventMask 2 events)
  | .eventRead o => some (o, .eventRead)
  | .resetSiteTraffic o => some (o, .resetSite 2)
  | .resetSiteFull o => some (o, .resetSite 1)
  | .reportSent => none

end Sys2Proof.Machine
end

