-- ==== Sys2Proof/Certificates/Slice0/Obligations.lean ====
section
/-! DEFINITION. Certificates/Slice0/Obligations.lean: the statements about the model, in the order of spec/'s chapters. -/

open Sys2Proof Sys2Proof.Machine

/-! ### The step -/

/-- A step runs the command at the front of the queue with the queue's rest. The queue is the model's own, not the
spec's. -/
def Obligations.StepRunsFrontCommand : Prop :=
  ∀ (c : Instr) (rest : List Instr) (s : State),
    step { s with pending := c :: rest } = exec c { s with pending := rest }

/-- No event stops the part: every step answers a next state, and so does every command. The model's choice: log 29;
the empty queue, log 2. -/
def Obligations.NoEventStopsThePart : Prop :=
  (∀ s : State, ∃ t, step s = .next t) ∧ ∀ (c : Instr) (s : State), ∃ t, exec c s = .next t

/-! ### Stamps and cells (01, 11) -/

/-- R7: the difference of two valid stamps is their raw difference folded, with its edge; what after, before and reached
mean; the lead an offer is judged by. -/
def Obligations.StampDifferenceIsFolded : Prop :=
  (∀ a b : Stamp, stampValid a = true → stampValid b = true →
    0 ≤ rawDiff a b ∧ rawDiff a b < 2560000000 ∧
    (rawDiff a b - ((linear a : Int) - (linear b : Int))) % 2560000000 = 0 ∧
    diff a b = (if 1280000000 < rawDiff a b then rawDiff a b - 2560000000 else rawDiff a b) ∧
    -1279999999 ≤ diff a b ∧ diff a b ≤ 1280000000 ∧ diff a a = 0 ∧
    (rawDiff a b ≠ 1280000000 → diff b a = -(diff a b) ∧
      ((0 < diff a b ∧ ¬0 < diff b a ∧ a ≠ b) ∨ (0 < diff b a ∧ ¬0 < diff a b ∧ a ≠ b) ∨
        (a = b ∧ ¬0 < diff a b ∧ ¬0 < diff b a))) ∧
    (rawDiff a b = 1280000000 → diff a b = 1280000000 ∧ diff b a = 1280000000)) ∧
  (∀ (s : State) (x : Stamp), s.reached x = true ↔ 0 ≤ diff s.now x) ∧
  ∀ (s : State) (f : Feed) (b : Half) (x : Stamp) (n : Nat),
    diff x s.now < (s.slots.minLead : Int) → (s.offer f b x n).1 = .late

/-- R8: the sum of a valid stamp and a number of ticks. -/
def Obligations.StampSumIsThatFarAway : Prop :=
  ∀ (x : Stamp) (d : Int), stampValid x = true → d.natAbs < 2560000000 →
    stampValid (addTicks x d) = true ∧
    (linear (addTicks x d) : Int) = ((linear x : Int) + d) % 2560000000 ∧
    (-1279999999 ≤ d → d ≤ 1280000000 → diff (addTicks x d) x = d)

/-- R14, R80: the cell number the model takes is the largest whose due offset has been reached. -/
def Obligations.LargestReachedCellNumber : Prop :=
  ∀ period ticks : Nat, 0 < period →
    dueOffset period (lastDue period ticks) ≤ ticks ∧ ticks < dueOffset period (lastDue period ticks + 1)

/-- 11, "Cells": a cell image and its 248 bytes determine each other. -/
def Obligations.CellImageBytesRoundTrip : Prop :=
  (∀ c : Cell, (cellToBytes c).length = 248 ∧ cellOfBytes (cellToBytes c) = c) ∧
  ∀ l : List Byte, l.length = 248 → cellToBytes (cellOfBytes l) = l

/-! ### Reset -/

/-- R16, R50, R52, R65, R67, R69, R93, R97, R113, R116, R132, R135, R155, R161, R164, R165, R169, R171, R180, R185:
what a FULL reset leaves, field by field. Left out, since no rule gives them a value at power-on: the pins, the cue and
load intakes, the reads in flight, both memories, and the model's own fields (logs 6, 7, 8, 10, 16). The last field of
a port is the model's own note too (log 32). -/
def Obligations.ResetHoldsTheStatedValues : Prop :=
  let s := State.reset
  s.time = ⟨0, 0, .unset, .reference, 0, 0, 0, 0, false, 50, 300⟩ ∧
  (∀ f, s.port f =
    ⟨.absent, 200, 200, none, 1, 0, 0, 0xFFFFFFFF, ⟨0, 0, 0, 0, 0, 0, 0, 0, 0, 0, 0, 0, 0, 0, 0, 0⟩, false⟩) ∧
  s.feeds = ⟨0, 200, .A⟩ ∧
  (∀ i, s.slot i = ⟨.free, 0, 0, 1, ⟨.empty, 0⟩, ⟨.empty, 0⟩, false⟩) ∧ s.slots.queue = [] ∧
  s.slots.counts = ⟨0, 0, 0, 0, 0, 0, 0, 0⟩ ∧ s.slots.minLead = 20000 ∧ s.slots.maxAhead = 120000000 ∧
  s.emitter = ⟨.muted, ⟨true, false⟩, ⟨0, 0⟩, 65011712, none, none, none, 0, s.emitter.labels,
    ⟨0, 0, 0, 0, 0, 0, 0, 0, 0⟩, false, 2000, none, s.emitter.fallbackMap⟩ ∧
  s.muteLine = true ∧ (∀ l, s.label l = ⟨.pass, 0, none, false, 0⟩) ∧ (∀ k, s.emitter.fallbackMap.get k = none) ∧
  (∀ n, s.clip n = ⟨.empty, 0, 1, 1, 0, 0, 0, 0, 0xFFFFFFFF, 0, false, false, 0, 0, 0⟩) ∧
  s.clips.record = ⟨false, none, none, none, none, none, none, 0⟩ ∧ s.clips.counts = ⟨0, 0, 0, 0, 0⟩ ∧
  (∀ n, s.channel n = ⟨.parked, if n = 8 then 512 else 448, if n = 8 then 256 else 224, [], [], none, 0, 0, 0, false,
    false, 0, 0, false, false, 0, 0, 0⟩) ∧
  (∀ n, s.service n = ⟨false, 8, 0, 0, 0, none⟩ ∧ s.schedule n = []) ∧
  (∀ k, (s.splice.breakMap.get k).valid = false ∧ (s.splice.breakMap.get k).service = 0 ∧
    (s.splice.breakMap.get k).breakId = 0 ∧ (s.splice.breakMap.get k).clips = [0] ∧
    ∀ i, (s.splice.breakMap.get k).labelMap.get i = none) ∧
  s.splice.asRun = [] ∧ s.splice.lastAsRun = 0 ∧ s.splice.lastNoticed = none ∧ s.splice.badCues = 0 ∧
  (∀ n, s.counters.get n = ⟨65535, 65535, .millisecond, .continuous, false, none, 0⟩) ∧
  (∀ n, s.alarms.get n = ⟨false, 0, 0, 0, none, 0⟩) ∧
  (∀ n, s.runner.descriptors.get n = ⟨false, 0, 1⟩) ∧
  (∀ k, (s.runner.store.get k).tag = 0 ∧ (s.runner.store.get k).code = 0 ∧
    ∀ i, (s.runner.store.get k).params.get i = 0) ∧
  s.runner.triggers = [] ∧ s.runner.state = .idle ∧ s.runner.fault = none ∧ s.runner.lastLost = none ∧
  s.runner.counts = ⟨0, 0, 0, 0⟩ ∧
  s.engine = ⟨s.pins.straps, 0, [], .runner, 0, 0, 0, [], false, ⟨0, 0, 0, 0, 0, 0, 0⟩⟩

/-- The reset state keeps every law below. The law of the memories is the model's own form: log 7; the reads in flight,
log 16. -/
def Obligations.ResetKeepsTheLaws : Prop :=
  MuteLaw State.reset ∧ MemoryLaw State.reset ∧ BoundsLaw State.reset ∧ EventLaw State.reset ∧
  FreeSlotLaw State.reset ∧ QueueLaw State.reset ∧ State.reset.queueRisesThroughout ∧ ScheduleLaw State.reset ∧
  (∀ n, State.reset.inBlocksRise n) ∧ ClipLaw State.reset ∧ PlayoutLaw State.reset

/-! ### Laws every step keeps -/

/-- R69, R31: every step keeps MUTED tied to the mute reasons, and the TIME reason to the time state. -/
def Obligations.EveryStepKeepsTheMuteLaw : Prop :=
  ∀ s t : State, MuteLaw s → step s = .next t → MuteLaw t

/-- Every step keeps both DDR memories in canonical form. The form, and 0 at an unlisted address, are the model's
choice: log 7. -/
def Obligations.EveryStepKeepsMemoriesCanonical : Prop :=
  ∀ s t : State, MemoryLaw s → step s = .next t → MemoryLaw t

/-- R183, R166, R173, R136, R101, R153, R33: every step keeps six queues within their room, the Report Queue, the
Pending Trigger Queue, the Command, cue and load intakes and the As-Run Log, and the two settings of the Site Time Unit
in their ranges. R144: it keeps the law of the schedules, with their windows disjoint; and their increasing in-block
order, where the in-blocks lie so near one another that the precedence of block numbers orders them all (log 20). R98,
R108: it keeps pages unshared and the use counts at the namings. R119: it keeps the depths within the playout memory and
each channel's fill within its depth, where no read in flight that is stale has come by the channel's generation again,
as one that outlived 2^32 generations would. That a read in flight is held with a mark that it is stale is the model's
own: log 16; an in-flight count of 0 with no fetch in flight, log 35. -/
def Obligations.EveryStepKeepsBounds : Prop :=
  ∀ s t : State, step s = .next t →
    (BoundsLaw s → BoundsLaw t) ∧ (ScheduleLaw s → ScheduleLaw t) ∧
    (ScheduleLaw s → ∀ n, s.inBlocksRise n → t.inBlocksNear n → t.inBlocksRise n) ∧
    (ScheduleLaw s → ClipLaw s → ClipLaw t) ∧
    (ScheduleLaw s → PlayoutLaw s →
      (∀ r ∈ t.clips.reads, r ∈ s.clips.reads → s.staleRead r = true → t.staleRead r = true) → PlayoutLaw t)

/-- R180: every step keeps the new set within the mask and within the latch. -/
def Obligations.EveryStepKeepsNewSetWithinMask : Prop :=
  ∀ s t : State, EventLaw s → step s = .next t → EventLaw t

/-- R52: every step keeps each FREE slot empty of any block. -/
def Obligations.EveryStepKeepsFreeSlotsEmpty : Prop :=
  ∀ s t : State, FreeSlotLaw s → step s = .next t → FreeSlotLaw t

/-- R69, R72: a step sends no cell or one; one that leaves the mute line asserted sends no cell but a null cell; and a
step from a state of the mute law leaves the line asserted exactly while a mute reason is held. The output fields are
the model's own: log 10; that one null cell leaves for several blocks discarded at one moment is its deduction: log 11.
-/
def Obligations.MutedPartSendsOnlyNullCells : Prop :=
  ∀ s t : State, step s = .next t →
    ((t.out.cells = s.out.cells ∧ t.out.cell = s.out.cell) ∨
      (t.out.cells = s.out.cells + 1 ∧ (t.muteLine = true → t.out.cell = some nullCell))) ∧
    (MuteLaw s → (t.muteLine = true ↔ t.emitter.reasons.held = true))

/-! ### Feed intake (03) -/

/-- R35, R36, R38, R53, R58: with no current copy a damaged, a malformed and a block cell are each counted, and that is
all; a damaged or malformed cell ends a current copy, which the Slot Table takes as BAD with the cells received, the
slot then lost or not; a report that does not fit the slot is ignored. -/
def Obligations.UntakenCellsAreCounted : Prop :=
  (∀ (s : State) (f : Feed) (c : Cell) (fault : Bool), (s.port f).current = none →
    let k := (s.port f).counts
    exec (.feedCellArrives f .damaged fault) s =
      .next (s.setPort f { s.port f with counts := { k with damaged := k.damaged + 1 } }) ∧
    (cellMalformed c = true → exec (.feedCellArrives f (.image c) fault) s =
      .next (s.setPort f { s.port f with counts := { k with malformed := k.malformed + 1 } })) ∧
    (cellMalformed c = false → c.kind ≠ kindTiming → exec (.feedCellArrives f (.image c) fault) s =
      .next (s.setPort f { s.port f with counts := { k with stray := k.stray + 1 } }))) ∧
  ∀ (s : State) (f : Feed) (a : Arrival) (fault : Bool) (r : CopyRef), (s.port f).current = some r →
    (a = .damaged ∨ ∃ c, a = .image c ∧ cellMalformed c = true) →
    let k := (s.port f).counts
    let ended : FeedPort := { s.port f with
      current := none
      counts := if a = .damaged then { k with damaged := k.damaged + 1 } else { k with malformed := k.malformed + 1 } }
    (s.reportFits f r = false → exec (.feedCellArrives f a fault) s = .next (s.setPort f ended)) ∧
    (s.reportFits f r = true →
      ∃ t, exec (.feedCellArrives f a fault) s = .next t ∧ t.port f = ended ∧
        BadReport s t s.engine f r.slot (s.port f).received ∧
        t = { s with portA := t.portA, portB := t.portB, slots := t.slots, engine := t.engine } ∧
        t.slots = { s.slots with slots := t.slots.slots, counts := t.slots.counts })

/-- R37, R53, R58 to R62: a block cell is written whole at index cells received; no other byte changes. Before the last
cell the port and the slot count it. The last one ends the copy: with another check as a BAD report; with the check
declared the copy is GOOD, and the first GOOD copy of an OPEN slot has the block handed over, cell by cell, and queued
in its place, or freed when its stamp is reached or stands in the queue already. R40: a write that faults ends the copy
as a BAD report with the cells received before it, counts the fault, and changes no byte outside the cell's own, each
of which is new or as it was: the bytes reached are a free value, log 8. The byte address of a copy's area is the
model's choice: log 7; what is counted at a clash and at a full intake, logs 13, 14. -/
def Obligations.BlockCellIsWrittenWhole : Prop :=
  (∀ (s : State) (f : Feed) (c : Cell) (r : CopyRef), (s.port f).current = some r →
    cellMalformed c = false → c.kind ≠ kindTiming → (s.port f).received < 512 →
    let p := s.port f
    let a := delayAddress r.slot f p.received
    ∃ t, exec (.feedCellArrives f (.image c) true) s = .next t ∧
      t.port f = { p with
        current := none, counts := { p.counts with writeFaults := p.counts.writeFaults + 1 } } ∧
      (∀ x, memRead t.delay x = memRead s.delay x ∨
        (a ≤ x ∧ x < a + 248 ∧ memRead t.delay x = (cellToBytes c).getD (x - a) 0)) ∧
      (s.reportFits f r = true → BadReport s t s.engine f r.slot p.received ∧
        t.slots = { s.slots with slots := t.slots.slots, counts := t.slots.counts }) ∧
      (s.reportFits f r = false → t.slots = s.slots ∧ t.engine = s.engine ∧
        t.port (otherFeed f) = s.port (otherFeed f)) ∧
      t = { s with
        portA := t.portA, portB := t.portB, slots := t.slots, engine := t.engine, delay := t.delay
        faultCount := s.faultCount + 1 }) ∧
  ∀ (s : State) (f : Feed) (c : Cell) (r : CopyRef), (s.port f).current = some r →
    cellMalformed c = false → c.kind ≠ kindTiming → (s.port f).received < 512 →
    (s.slot r.slot).state ≠ .free → (s.slot r.slot).block = r.block → ((s.slot r.slot).copy f).state = .filling →
    let p := s.port f
    let sl := s.slot r.slot
    let check := crcFrom p.runningCheck (cellToBytes c)
    let good := sl.setCopy f ⟨.good, sl.count⟩
    ∃ t, exec (.feedCellArrives f (.image c) false) s = .next t ∧
      (∀ a, memRead t.delay a =
        if delayAddress r.slot f p.received ≤ a ∧ a < delayAddress r.slot f p.received + 248
        then (cellToBytes c).getD (a - delayAddress r.slot f p.received) 0 else memRead s.delay a) ∧
      (∀ j, j ≠ r.slot → t.slot j = s.slot j) ∧
      (p.received + 1 < p.expected →
        t.port f = { p with received := p.received + 1, runningCheck := check } ∧
        t.slot r.slot = sl.setCopy f ⟨.filling, (sl.copy f).received + 1⟩ ∧ t.port (otherFeed f) = s.port (otherFeed f) ∧
        t = { s with portA := t.portA, portB := t.portB, slots := t.slots, delay := t.delay } ∧
        t.slots = { s.slots with slots := t.slots.slots }) ∧
      (p.received + 1 = p.expected → check ≠ p.blockCheck →
        t.port f = { p with
          current := none, received := p.received + 1, runningCheck := check
          counts := { p.counts with checkFailures := p.counts.checkFailures + 1 } } ∧
        BadReport s t s.engine f r.slot (p.received + 1) ∧
        t = { s with portA := t.portA, portB := t.portB, slots := t.slots, delay := t.delay, engine := t.engine } ∧
        t.slots = { s.slots with slots := t.slots.slots, counts := t.slots.counts }) ∧
      (p.received + 1 = p.expected → check = p.blockCheck →
        let cells := (List.range sl.count).map fun k => t.delayCell r.slot f k
        let h := s.handed cells
        let n := h.slots.counts
        t.port f = { p with
          current := none, received := p.received + 1, runningCheck := check
          counts := { p.counts with good := p.counts.good + 1 } } ∧
        (sl.state ≠ .opened → t.slot r.slot = good ∧ t.port (otherFeed f) = s.port (otherFeed f) ∧
          t = { s with portA := t.portA, portB := t.portB, slots := t.slots, delay := t.delay } ∧
          t.slots = { s.slots with slots := t.slots.slots }) ∧
        (sl.state = .opened →
          t = { s with
            portA := t.portA, portB := t.portB, slots := t.slots, delay := t.delay, engine := t.engine
            splice := h.splice, clips := h.clips } ∧
          t.slots = { s.slots with slots := t.slots.slots, queue := t.slots.queue, counts := t.slots.counts } ∧
          (0 ≤ diff s.now sl.stamp ∨ s.clashes r.slot = true → t.slot r.slot = Slot.free ∧
            t.slots.queue = s.slots.queue ∧
            t.port (otherFeed f) = if (sl.copy (otherFeed f)).state = .filling
              then (s.port (otherFeed f)).withdrawn r.slot else s.port (otherFeed f)) ∧
          (0 ≤ diff s.now sl.stamp →
            t.slots.counts = { n with lateCompletions := n.lateCompletions + 1 } ∧
            t.engine = h.engine.latch .blockDrop) ∧
          (diff s.now sl.stamp < 0 → s.clashes r.slot = true →
            t.slots.counts = { n with ready := n.ready + 1, stampClashes := n.stampClashes + 1 } ∧
            t.engine = h.engine.latch .divergence) ∧
          (diff s.now sl.stamp < 0 → s.clashes r.slot = false →
            t.slot r.slot = { good with state := .ready, dispatched := true } ∧
            t.slots.queue = s.insertQueue r.slot s.slots.queue ∧ t.slots.counts = { n with ready := n.ready + 1 } ∧
            t.engine = h.engine ∧ t.port (otherFeed f) = s.port (otherFeed f))))

/-- R39, R42 to R46: a TIMING cell first ends a copy as short, reported BAD with the cells received; then loads the
silence value and makes the port TRACKING, with FEED_BACK from LOST; then is counted as foreign with NETWORK latched,
as bad TIMING, or as not timed, or is offered, and a refused offer is counted by its answer. R46, R54, R55: an offer in
time, to a FREE slot, through an open time gate, opens the slot and the port's copy. The port's note `forestalled` is
the model's own: log 32. -/
def Obligations.AcceptedOfferOpensTheSlot : Prop :=
  (∀ (s : State) (f : Feed) (c : Cell) (fault : Bool), cellMalformed c = false → c.kind = kindTiming →
    let m := readTiming c.payload
    let k := (s.port f).counts
    let ended : FeedPort := { s.port f with current := none, counts := { k with short := k.short + 1 } }
    ∃ u v : State,
      ((s.port f).current = none → u = s) ∧
      (∀ r, (s.port f).current = some r → s.reportFits f r = false → u = s.setPort f ended) ∧
      (∀ r, (s.port f).current = some r → s.reportFits f r = true → u.port f = ended ∧
        BadReport s u s.engine f r.slot (s.port f).received ∧
        u = { s with portA := u.portA, portB := u.portB, slots := u.slots, engine := u.engine } ∧
        u.slots = { s.slots with slots := u.slots.slots, counts := u.slots.counts }) ∧
      v.port f = { u.port f with
        state := .tracking, silence := (s.port f).silenceLatch, forestalled := (v.port f).forestalled } ∧
      v.engine = (if (s.port f).state = .lost then u.engine.latch .feedBack else u.engine) ∧
      v = { u.setPort f (v.port f) with engine := v.engine } ∧
      ((v.port f).forestalled = true ↔
        (s.port f).state = .tracking ∧ ((s.port f).silence = 1 ∨ (s.port f).forestalled = true)) ∧
      let with' := fun (w : State) (k : FeedCounts) => w.setPort f { w.port f with counts := k }
      let k := (v.port f).counts
      let w := (v.offer f m.block m.stamp m.count.toNat).2
      let j := (w.port f).counts
      let isBad := m.count.toNat < 1 ∨ 512 < m.count.toNat ∨ stampValid m.stamp = false
      let answer := (v.offer f m.block m.stamp m.count.toNat).1
      (m.networkId ≠ s.feeds.networkId → exec (.feedCellArrives f (.image c) fault) s =
        .next { with' v { k with foreign := k.foreign + 1 } with engine := v.engine.latch .network }) ∧
      (m.networkId = s.feeds.networkId → isBad → exec (.feedCellArrives f (.image c) fault) s =
        .next (with' v { k with badTiming := k.badTiming + 1 })) ∧
      (m.networkId = s.feeds.networkId → ¬isBad →
        (s.time.state = .unset ∨ s.time.state = .acquiring → exec (.feedCellArrives f (.image c) fault) s =
          .next (with' v { k with notTimed := k.notTimed + 1 })) ∧
        (s.time.state ≠ .unset → s.time.state ≠ .acquiring →
          (answer = .accept → exec (.feedCellArrives f (.image c) fault) s =
            .next (w.setPort f { w.port f with
              current := some ⟨slotOf m.block, m.block⟩, expected := m.count.toNat, received := 0
              blockCheck := m.check, runningCheck := 0xFFFFFFFF })) ∧
          (answer = .late → exec (.feedCellArrives f (.image c) fault) s =
            .next (with' w { j with late := j.late + 1 })) ∧
          (answer = .early → exec (.feedCellArrives f (.image c) fault) s =
            .next (with' w { j with early := j.early + 1 })) ∧
          (answer = .duplicate → exec (.feedCellArrives f (.image c) fault) s =
            .next (with' w { j with duplicate := j.duplicate + 1 })) ∧
          (answer = .divergence → exec (.feedCellArrives f (.image c) fault) s =
            .next (with' w { j with divergence := j.divergence + 1 })) ∧
          (answer = .collision → exec (.feedCellArrives f (.image c) fault) s =
            .next (with' w { j with collision := j.collision + 1 }))))) ∧
  ∀ (s : State) (f : Feed) (c : Cell) (fault : Bool), (s.port f).current = none →
    cellMalformed c = false → c.kind = kindTiming →
    let m := readTiming c.payload
    m.networkId = s.feeds.networkId → 1 ≤ m.count.toNat → m.count.toNat ≤ 512 → stampValid m.stamp = true →
    (s.time.state ≠ .unset ∧ s.time.state ≠ .acquiring) →
    (s.slots.minLead : Int) ≤ diff m.stamp s.now → diff m.stamp s.now ≤ (s.slots.maxAhead : Int) →
    (s.slot (slotOf m.block)).state = .free →
    ∃ t, exec (.feedCellArrives f (.image c) fault) s = .next t ∧
      (t.port f).current = some ⟨slotOf m.block, m.block⟩ ∧ (t.port f).expected = m.count.toNat ∧
      (t.port f).received = 0 ∧ (t.port f).blockCheck = m.check ∧ (t.port f).runningCheck = 0xFFFFFFFF ∧
      (t.port f).state = .tracking ∧ (t.port f).silence = (s.port f).silenceLatch ∧
      (t.port f).counts = (s.port f).counts ∧
      t.slot (slotOf m.block) =
        ({ Slot.free with state := .opened, block := m.block, stamp := m.stamp, count := m.count.toNat } : Slot).setCopy
          f ⟨.filling, 0⟩ ∧
      (∀ j, j ≠ slotOf m.block → t.slot j = s.slot j) ∧
      t.slots.counts = { s.slots.counts with opened := s.slots.counts.opened + 1 } ∧
      t.slots.queue = s.slots.queue ∧
      t = { s with portA := t.portA, portB := t.portB, slots := t.slots, engine := t.engine }

/-- R54 to R58: an offer is answered by its lead, and then by what its slot holds; a refused one leaves every slot as it
was. A lost slot is settled first, as FREE, and the offer opens it, as it does a FREE one. -/
def Obligations.OfferIsAnsweredByLeadAndSlot : Prop :=
  ∀ (s : State) (f : Feed) (b : Half) (stamp : Stamp) (count : Nat),
    let lead := diff stamp s.now
    let sl := s.slot (slotOf b)
    let lost := sl.state = .opened ∧ sl.copyA.state ≠ .good ∧ sl.copyA.state ≠ .filling ∧ sl.copyB.state ≠ .good ∧
      sl.copyB.state ≠ .filling ∧ ((sl.copyA.state = .bad ∧ sl.copyB.state = .bad) ∨ 0 ≤ diff s.now sl.stamp)
    let taken := s.setSlot (slotOf b)
      (({ Slot.free with state := .opened, block := b, stamp := stamp, count := count } : Slot).setCopy f ⟨.filling, 0⟩)
    let k := s.slots.counts
    (lead < (s.slots.minLead : Int) → s.offer f b stamp count = (.late, s.latch .blockDrop)) ∧
    ((s.slots.minLead : Int) ≤ lead → (s.slots.maxAhead : Int) < lead →
      s.offer f b stamp count = (.early, s.latch .blockDrop)) ∧
    ((s.slots.minLead : Int) ≤ lead → lead ≤ (s.slots.maxAhead : Int) → sl.state = .free →
      s.offer f b stamp count =
        (.accept, { taken with slots := { taken.slots with counts := { k with opened := k.opened + 1 } } })) ∧
    ((s.slots.minLead : Int) ≤ lead → lead ≤ (s.slots.maxAhead : Int) → lost →
      s.offer f b stamp count =
        (.accept, { taken with
          slots := { taken.slots with counts := { k with lost := k.lost + 1, opened := k.opened + 1 } }
          engine := s.engine.latch .blockDrop })) ∧
    ((s.slots.minLead : Int) ≤ lead → lead ≤ (s.slots.maxAhead : Int) → ¬lost → sl.state ≠ .free →
      (sl.block ≠ b → s.offer f b stamp count = (.collision, s.latch .blockDrop)) ∧
      (sl.block = b → (sl.stamp ≠ stamp ∨ sl.count ≠ count) →
        s.offer f b stamp count = (.divergence, s.latch .divergence)) ∧
      (sl.block = b → sl.stamp = stamp → sl.count = count → sl.state = .emitting →
        s.offer f b stamp count = (.late, s)) ∧
      (sl.block = b → sl.stamp = stamp → sl.count = count → sl.state ≠ .emitting → (sl.copy f).state ≠ .empty →
        s.offer f b stamp count = (.duplicate, s)) ∧
      (sl.block = b → sl.stamp = stamp → sl.count = count → sl.state ≠ .emitting → (sl.copy f).state = .empty →
        s.offer f b stamp count = (.accept, s.setSlot (slotOf b) (sl.setCopy f ⟨.filling, 0⟩))))

/-- R62: a new slot takes its place immediately before the first queued slot whose stamp is after its own, and the
order of the others is kept. R52, R59, R62, R73: every step keeps the law of the Emission Queue; and it keeps each
stamp after the one before it, but that a mark, which may take blocks from the middle of the queue (R32), keeps this
where each stamp is after every one before it. -/
def Obligations.InsertionKeepsStampOrder : Prop :=
  (∀ (s : State) (i : Fin 256) (queue : List (Fin 256)),
    ∃ before after, queue = before ++ after ∧ s.insertQueue i queue = before ++ i :: after ∧
      (∀ q ∈ before, diff (s.slot q).stamp (s.slot i).stamp ≤ 0) ∧
      ∀ q, after.head? = some q → 0 < diff (s.slot q).stamp (s.slot i).stamp) ∧
  ∀ s t : State, MuteLaw s → QueueLaw s → step s = .next t → QueueLaw t ∧
    (s.queueRises → (∀ tick v fault, s.pending.head? ≠ some (.secondMark tick v fault)) → t.queueRises) ∧
    (s.queueRisesThroughout → (∃ tick v fault, s.pending.head? = some (.secondMark tick v fault)) →
      t.queueRisesThroughout)

/-- R47, R53, R58: the silence expiry loses the feed, latches its event and ends any copy as short, reported BAD with
the cells received; without a copy no count moves. SILENCE_EXPIRY as the port's own part of a millisecond event is the
model's choice: log 1. -/
def Obligations.SilenceExpiryLosesTheFeed : Prop :=
  ∀ (s : State) (f : Feed), (s.port f).state = .tracking → (s.port f).silence = 1 →
    let k := (s.port f).counts
    let g := s.engine.latch (lostEvent f)
    ∃ t, exec (.silenceExpiry f) s = .next t ∧
      t.port f = { s.port f with
        state := .lost, silence := 0, current := none
        counts := if (s.port f).current.isSome then { k with short := k.short + 1 } else k } ∧
      t.engine.latched.getLsbD (feedIndex f) = true ∧
      ((s.port f).current = none ∨ (∃ r, (s.port f).current = some r ∧ s.reportFits f r = false) →
        t.slots = s.slots ∧ t.engine = g ∧ t.port (otherFeed f) = s.port (otherFeed f)) ∧
      (∀ r, (s.port f).current = some r → s.reportFits f r = true →
        BadReport s t g f r.slot (s.port f).received ∧
        t.slots = { s.slots with slots := t.slots.slots, counts := t.slots.counts }) ∧
      t = { s with portA := t.portA, portB := t.portB, slots := t.slots, engine := t.engine }

/-! ### Site Time (02) -/

/-- R18, R23: a millisecond event is that of the multiple of 10,000 where the count stands, when it is still due there,
and else takes the tick count to its next multiple; it paces the ports and the fallback timer; no cell leaves and no
DDR byte changes. A mark missed on the way is taken first. R47: a TRACKING port's value goes down by one, and from 1
its feed is LOST and its copy ends as short, reported BAD; so it does after a TIMING cell of an earlier tick. R48, R10:
a TIMING cell taken at the tick of the event, where it was to be that expiry, leaves the value as loaded. R58: each
OPEN slot that is lost at that tick, those reports taken, is freed, counted, and latches BLOCK_DROP. R158, R159: each
running MILLISECOND counter is pulsed once, and underflows from 1 into the cascade above it. R163: each alarm reached
at that tick fires. R87, R88: in IDLE the fallback timer goes up to its delay, where fallback begins when it may. The
event at 10,000,000 is that of tick 0, and the row does what SECOND_BOUNDARY does: one row for the whole wrap is the
model's choice, log 37. The count brought up to its next multiple, and the field `eventDue`, are too: log 3; so is the
note of a TIMING cell, `forestalled`: log 32; a timer above the delay: log 34; the order of the blocks at the event:
log 4. -/
def Obligations.MillisecondEventPacesThePart : Prop :=
  (∀ s : State,
    (s.eventDue = true ∧ s.time.ticks.val = 0) ∨
      (s.eventDue = false ∧ 10000000 ≤ (s.time.ticks.val / 10000 + 1) * 10000) →
    exec .millisecondEvent s = exec .secondBoundary s) ∧
  ∀ s : State, BoundsLaw s →
    (s.eventDue = false → s.time.markSeen = false → s.time.ticks.val ≤ s.time.window →
      ∀ u, exec .missedMark s = .next u → exec .millisecondEvent s = exec .millisecondEvent u) ∧
    ((s.eventDue = true ∧ s.time.ticks.val ≠ 0) ∨
      (s.eventDue = false ∧ (s.time.ticks.val / 10000 + 1) * 10000 < 10000000 ∧
        (s.time.markSeen = true ∨ s.time.window < s.time.ticks.val)) →
      let tick := if s.eventDue = true then s.time.ticks.val else (s.time.ticks.val / 10000 + 1) * 10000
      ∃ t, exec .millisecondEvent s = .next t ∧
        t.time.ticks.val = tick ∧ t.time = { s.time with ticks := t.time.ticks } ∧ t.eventDue = false ∧
        MillisecondWork s t s.time.seconds tick s.eventDue s.counters.items ∧
        t.engine = { s.engine with latched := t.engine.latched, fresh := t.engine.fresh } ∧
        (NothingPushed s s.time.seconds tick s.counters.items → t.runner = s.runner) ∧
        t = { s with
          time := t.time, eventDue := false, portA := t.portA, portB := t.portB, slots := t.slots, emitter := t.emitter
          engine := t.engine, clips := t.clips, channels := t.channels, counters := t.counters, alarms := t.alarms
          runner := t.runner })

/-- R17, R18, R20, R23, R29: a second boundary counts the present second out, with the millisecond events and the missed
mark on the way, which opens the mark window when that is still to come; it wraps the tick count, counts the second and
does the unit's own work. Where the count stands at tick 0 and the events of that tick are still due, it issues them
there. At the holdover limit it enters FREE-RUN, which gives the TIME mute reason (R31). R158, R159: the counters take
one event of source SECOND and then one of MILLISECOND. The millisecond of tick 0 does its work at the ports (R47, R48),
the Slot Table (R58), the fallback timer (R87, R88) and the alarms (R163) as any other does. R182, R183, R189: a new set
that is not empty is queued as an EVENT report, or dropped by a full queue, and is then empty of it; an empty one queues
nothing. The report is stated where no counter that underflows at the second pushes a list, which could latch an event
of its own. The present second counted out at once is the model's choice: log 3; the order of the counters, the report
and the work of the millisecond of tick 0 too: log 4; the millisecond of tick 0 in the same row: log 37; HOLDOVER_EXPIRY
as the holdover count alone: log 1; a fallback timer above a shorter delay, lowered to it: log 34; the field `eventDue`:
log 3; a port's note: log 32. -/
def Obligations.SecondBoundaryCountsTheSecond : Prop :=
  ∀ s : State, BoundsLaw s →
    let due := s.eventDue = true ∧ s.time.ticks.val = 0
    (∃ t, exec .secondBoundary s = .next t) ∧
    (¬due → s.time.markSeen = false → s.time.ticks.val ≤ s.time.window →
      ∀ u, exec .missedMark s = .next u → exec .secondBoundary s = exec .secondBoundary u) ∧
    (¬due → s.eventDue = true ∨ s.time.ticks.val < 9990000 →
      ∀ u, exec .millisecondEvent s = .next u → exec .secondBoundary s = exec .secondBoundary u) ∧
    (due ∨ (s.eventDue = false ∧ 9990000 ≤ s.time.ticks.val) →
      let second := if due then s.time.seconds else s.time.seconds + 1
      let now : Stamp := second.extractLsb' 0 8 ++ (0 : BitVec 24)
      let free := s.time.state = .holdover ∧ s.time.holdoverLimit ≤ s.time.holdover + 1
      let bank := bankAfter .second s.counters.items
      ∃ u t, exec .holdoverExpiry s = .next u ∧ exec .secondBoundary s = .next t ∧
        (free → t.emitter.reasons = { s.emitter.reasons with time := true } ∧ t.emitter.phase = s.emitter.phase ∧
          t.engine.latched.getLsbD Event.timeState.position = true ∧
          (MuteLaw s → t.emitter.state = .muted ∧
            (s.emitter.state ≠ .muted → t.engine.latched.getLsbD Event.mute.position = true))) ∧
        t.time = { s.time with
          ticks := 0
          seconds := second
          state := if free then .freeRun else s.time.state
          source := if s.pins.refEdges = true then .reference else s.time.source
          holdover := if s.time.state = .holdover then s.time.holdover + 1 else s.time.holdover
          markSeen := if ¬due ∧ s.time.ticks.val < 10000000 - s.time.window then false else s.time.markSeen } ∧
        t.eventDue = false ∧
        MillisecondWork u t second 0 s.eventDue bank ∧
        (∀ n : Fin 4, underflowsAt .second s.counters.items n → t.engine.latched.getLsbD (18 + n.val) = true) ∧
        ((∀ n, ¬pushesAt .second s.counters.items n) →
          let back := if s.time.source = .localOsc ∧ s.pins.refEdges = true then u.engine.latch .refClock else u.engine
          BoundaryReported (back.afterSecond s.counters.items) t.engine now ∧
          (NothingPushed s second 0 bank → t.runner = s.runner)) ∧
        (s.time.source = .localOsc → s.pins.refEdges = true → t.engine.latched.getLsbD Event.refClock.position = true))

/-- R29, R31: the holdover count at its limit takes the unit to FREE-RUN and mutes the exciter. The row as the Site
Time Unit's own part of the boundary is the model's choice: log 1. -/
def Obligations.HoldoverExpiryMutes : Prop :=
  ∀ s : State, MuteLaw s → s.time.state = .holdover → s.time.holdoverLimit ≤ s.time.holdover + 1 →
    ∃ t, exec .holdoverExpiry s = .next t ∧
      t.time = { s.time with state := .freeRun, holdover := s.time.holdover + 1 } ∧
      t.emitter.state = .muted ∧ t.emitter.reasons = { s.emitter.reasons with time := true } ∧
      t.emitter.phase = s.emitter.phase ∧ t.engine.latched.getLsbD 7 = true ∧
      (s.emitter.state ≠ .muted → t.engine.latched.getLsbD 11 = true) ∧
      t.out = s.out ∧ t.delay = s.delay ∧ t.clips = s.clips ∧ t.splice = s.splice ∧ t.counters = s.counters

/-- R23, R26 to R30: the mark window opens when the count reaches 10,000,000 − W, clearing mark seen; a mark is missed
when it reaches W + 1 with mark seen no, and acts by the time state; a place the count is at or past is not reached. The
millisecond events on the way come first (R18). At either place a mark and the command have one outcome whichever is
first; a mark that takes the clock from the place to tick 0 leaves the command nothing to do. The count brought up to the
place with the events on its way, the missed mark taken before a mark at W + 1, and the note of a mark that stood at the
place are the model's choice, and the field `eventDue`, no away from a multiple of 10,000, is its own: log 3; so is the
note of a TIMING cell, dropped at both ports by a row that moves the count (`later`): log 32. That MILLISECOND_EVENT at
tick 0 does the whole wrap is its choice: log 37. -/
def Obligations.MarkWindowOpensAndIsMissed : Prop :=
  (∀ s : State, BoundsLaw s →
    (10000000 - s.time.window ≤ s.time.ticks.val ∨ (s.openingTaken = true ∧ s.time.ticks.val = 0) →
      exec .markWindowOpen s = .next s) ∧
    (s.time.ticks.val < 10000000 - s.time.window → s.openingTaken = false ∨ s.time.ticks.val ≠ 0 →
      s.eventDue = true ∨ s.time.ticks.val < 9990000 →
      ∀ u, exec .millisecondEvent s = .next u → exec .markWindowOpen s = exec .markWindowOpen u) ∧
    (s.time.ticks.val < 10000000 - s.time.window → s.eventDue = false → 9990000 ≤ s.time.ticks.val →
      ∃ t, exec .markWindowOpen s = .next t ∧ t.time.ticks.val = 10000000 - s.time.window ∧
        t = { s with
          portA := s.portA.later, portB := s.portB.later, eventDue := false
          time := { s.time with ticks := t.time.ticks, markSeen := false } }) ∧
    (s.time.markSeen = true ∨ s.time.window < s.time.ticks.val → exec .missedMark s = .next s) ∧
    (s.eventDue = true → s.time.markSeen = false → s.time.ticks.val ≤ s.time.window →
      ∀ u, exec .millisecondEvent s = .next u → exec .missedMark s = exec .missedMark u)) ∧
  (∀ s : State, BoundsLaw s → MuteLaw s → s.time.ticks.val ≤ s.time.window → s.time.markSeen = false →
    s.eventDue = false →
    ∃ t, exec .missedMark s = .next t ∧ t.time.ticks.val = s.time.window + 1 ∧
      (s.openingTaken = false ∨ s.time.ticks.val ≠ 0 → exec .markWindowOpen s = exec .markWindowOpen t) ∧
      (s.time.state = .acquiring → t.time = { s.time with ticks := t.time.ticks, goodRun := 0 }) ∧
      (s.time.state = .locked → s.time.missedRun = 0 →
        t.time = { s.time with ticks := t.time.ticks, missedRun := 1 }) ∧
      (s.time.state = .locked → 1 ≤ s.time.missedRun →
        t.time = { s.time with
          ticks := t.time.ticks, state := .holdover, missedRun := s.time.missedRun + 1, holdover := 0 }) ∧
      (s.time.state ≠ .acquiring → s.time.state ≠ .locked → t.time = { s.time with ticks := t.time.ticks }) ∧
      t = { s with
        portA := s.portA.later, portB := s.portB.later, time := t.time, eventDue := false
        engine := if s.time.state = .locked ∧ 1 ≤ s.time.missedRun then s.engine.latch .timeState else s.engine }) ∧
  ∀ (s u : State) (v : Option Word) (fault : Bool), BoundsLaw s →
    (s.time.ticks.val < 10000000 - s.time.window → exec .markWindowOpen s = .next u →
      exec (.secondMark (10000000 - s.time.window) v fault) s =
        exec (.secondMark (10000000 - s.time.window) v fault) u) ∧
    (s.time.ticks.val ≤ 10000000 - s.time.window → exec (.secondMark (10000000 - s.time.window) v fault) s = .next u →
      exec .markWindowOpen u = .next u) ∧
    (exec .missedMark s = .next u →
      exec (.secondMark (s.time.window + 1) v fault) s = exec (.secondMark (s.time.window + 1) v fault) u) ∧
    (s.time.ticks.val ≤ s.time.window + 1 → exec (.secondMark (s.time.window + 1) v fault) s = .next u →
      exec .missedMark u = .next u)

/-- R25, R26, R14: the first mark with a value sets an UNSET clock, enters ACQUIRING and moves the phase reference, with
one second-boundary event and one millisecond event and their work (R17, R18, R158, R182) and the alarm test (R32, R163).
A mark without a value in UNSET changes nothing; the tick count has then been brought to its tick, where that lay ahead.
Any mark at a tick ahead is judged there, after the millisecond events (R18) and the missed mark (R23) on the way. A mark
at a tick already past, judged at the present tick, a count brought to the tick of a mark, and a due event taken before a
mark that sets the clock, are the model's choice: log 3; the order of what a set brings too: logs 4, 21; MILLISECOND_EVENT
doing the whole wrap at tick 0: log 37; the note of a TIMING cell, dropped by a count that moves, is its own: log 32. -/
def Obligations.FirstMarkSetsTheClock : Prop :=
  (∀ (s : State) (tick : Nat) (v : Option Word) (fault : Bool), BoundsLaw s →
    s.time.ticks.val < tick → tick < 10000000 →
    let later := (s.time.ticks.val / 10000 + 1) * 10000
    (s.eventDue = true ∨ later < tick → ∀ u, exec .millisecondEvent s = .next u →
      exec (.secondMark tick v fault) s = exec (.secondMark tick v fault) u) ∧
    (s.time.markSeen = false → s.time.ticks.val ≤ s.time.window → s.time.window < tick →
      ∀ u, exec .missedMark s = .next u →
      exec (.secondMark tick v fault) s = exec (.secondMark tick v fault) u) ∧
    (s.eventDue = false → tick ≤ later →
      s.time.markSeen = true ∨ s.time.window < s.time.ticks.val ∨ tick ≤ s.time.window →
      ∃ u, exec (.secondMark tick v fault) s = exec (.secondMark tick v fault) u ∧ u.time.ticks.val = tick ∧
        u = { s with
          portA := s.portA.later, portB := s.portB.later, eventDue := decide (tick % 10000 = 0)
          time := { s.time with
            ticks := u.time.ticks
            markSeen := if s.time.ticks.val < 10000000 - s.time.window ∧ 10000000 - s.time.window ≤ tick then false
              else s.time.markSeen } })) ∧
  (∀ (s : State) (tick : Nat) (fault : Bool), s.time.state = .unset →
    (tick ≤ s.time.ticks.val ∨ 10000000 ≤ tick → exec (.secondMark tick none fault) s = .next s) ∧
    (BoundsLaw s → s.eventDue = false → s.time.ticks.val < tick → tick < 10000000 →
      tick ≤ (s.time.ticks.val / 10000 + 1) * 10000 →
      ∃ t, exec (.secondMark tick none fault) s = .next t ∧ t.time.ticks.val = tick ∧
        t = { s with
          portA := s.portA.later, portB := s.portB.later, eventDue := decide (tick % 10000 = 0)
          time := { s.time with
            ticks := t.time.ticks
            markSeen := if s.time.ticks.val < 10000000 - s.time.window ∧ 10000000 - s.time.window ≤ tick then false
              else s.time.markSeen } })) ∧
  ∀ (s : State) (tick : Nat) (v : Word) (fault : Bool), MuteLaw s → s.time.state = .unset → s.slots.queue = [] →
    tick ≤ s.time.ticks.val ∨ 10000000 ≤ tick →
    (s.eventDue = true → ∀ u, exec .millisecondEvent s = .next u →
      exec (.secondMark tick (some v) fault) s = exec (.secondMark tick (some v) fault) u) ∧
    (s.eventDue = false →
      let now : Stamp := v.extractLsb' 0 8 ++ (0 : BitVec 24)
      let bank := bankAfter .second s.counters.items
      ∃ t, exec (.secondMark tick (some v) fault) s = .next t ∧
        t.time = { s.time with
          seconds := v, ticks := 0, state := .acquiring, goodRun := 1, outlierRun := 0, missedRun := 0, markSeen := true
          source := if s.pins.refEdges = true then .reference else s.time.source } ∧
        t.emitter = { s.emitter with
          phase := ⟨now, 0⟩, period := s.emitter.pendingPeriod.getD s.emitter.period, pendingPeriod := none } ∧
        t.emitter.state = .muted ∧ t.engine.latched.getLsbD 7 = true ∧ t.eventDue = false ∧
        (∀ n : Fin 4, underflowsAt .second s.counters.items n → t.engine.latched.getLsbD (18 + n.val) = true) ∧
        (let w : State := { s with time := t.time, emitter := t.emitter }
         MillisecondWork w t v 0 true bank) ∧
        ((∀ n, ¬pushesAt .second s.counters.items n) →
          let back := if s.time.source = .localOsc ∧ s.pins.refEdges = true then s.engine.latch .refClock else s.engine
          BoundaryReported ((back.latch .timeState).afterSecond s.counters.items) t.engine now ∧
          (NothingPushed s v 0 bank → t.runner = s.runner)))

/-- R22: when a mark is good. R23 to R25, R27 to R32: a good mark takes the clock to tick 0, back with no event for the
boundary, or forward with the boundary's own work first and then the work of both events at every block (R17, R18, R158,
R182); it counts in ACQUIRING, and locks with the source REFERENCE at the third; clears the runs in LOCKED; ends
HOLDOVER, or with the source LOCAL clears its count; begins ACQUIRING anew in FREE-RUN. The alarms are tested (R32,
R163), and a head that reads as reached starts or is discarded (R32, R79, R80). The first two outliers in LOCKED move no
clock; the third, and every outlier in ACQUIRING, HOLDOVER and FREE-RUN, steps the clock, enters ACQUIRING, does the work
of both events, and takes from the queue every block that reads as reached by the clock as stepped, each with its notice,
which the Splice Unit takes (R145 to R149, with the flushes of R129). R70, R71: a block on air is cut where the TIME reason
mutes. The marks are at the present tick. An event still due there is taken before a mark that moves the clock, by the model's
choice: log 3; what comes at one moment with a mark is ordered by its choice: logs 4, 21; MILLISECOND_EVENT at tick 0 does
the whole wrap: log 37; a fallback timer above a shorter delay is lowered to it: log 34. Its deductions: one null cell
leaves for several blocks discarded there: log 11; the unsent cells are judged by the cell number: log 12; BLOCK_START and
BLOCK_DISCARD at a stamp already passed: log 26; the flush again of an entry once primed, when it leaves: log 33. The
output fields are its own: log 10; so is a port's note: log 32. -/
def Obligations.MarksLockAndOutliersAreCounted : Prop :=
  (∀ (s : State) (v : Option Word),
    let early := s.time.ticks.val < 5000000
    let second := if early then s.time.seconds else s.time.seconds + 1
    let near := (early ∧ s.time.ticks.val ≤ s.time.window) ∨ (¬early ∧ 10000000 - s.time.ticks.val ≤ s.time.window)
    (s.time.goodMark v = true ↔ near ∧ (∀ x, v = some x → x = second) ∧ s.time.markSeen = false) ∧
    (s.time.inWindow = true ↔ near) ∧ s.time.markSecond = second) ∧
  (∀ (s : State) (v : Option Word) (fault : Bool), s.eventDue = true → s.time.state ≠ .unset →
    (s.time.goodMark v = true ∧ s.time.ticks.val ≠ 0) ∨
      (s.time.goodMark v = false ∧ (s.time.state ≠ .locked ∨ 2 ≤ s.time.outlierRun)) →
    ∀ u, exec .millisecondEvent s = .next u →
      exec (.secondMark s.time.ticks.val v fault) s = exec (.secondMark s.time.ticks.val v fault) u) ∧
  (∀ (s : State) (v : Option Word) (fault : Bool), s.time.state = .locked → s.time.outlierRun < 2 →
    s.time.goodMark v = false →
    exec (.secondMark s.time.ticks.val v fault) s =
      .next { s with time := { s.time with
        outlierRun := s.time.outlierRun + 1, markSeen := s.time.markSeen || s.time.inWindow } }) ∧
  (∀ (s : State) (v : Option Word) (fault : Bool), MuteLaw s → s.time.state = .acquiring → s.time.goodRun = 2 →
    s.time.source = .reference → s.time.goodMark v = true → s.eventDue = false ∨ s.time.ticks.val = 0 →
    ∃ t, exec (.secondMark s.time.ticks.val v fault) s = .next t ∧
      t.time = { s.time with
        ticks := 0, seconds := s.time.markSecond, markSeen := true, state := .locked, goodRun := 3
        outlierRun := 0, missedRun := 0 } ∧
      t.emitter.reasons = { s.emitter.reasons with time := false } ∧ t.engine.latched.getLsbD 7 = true ∧
      (s.emitter.reasons.operator = false → t.emitter.state ≠ .muted ∧ t.engine.latched.getLsbD 11 = true) ∧
      t.delay = s.delay) ∧
  (∀ (s : State) (v : Option Word) (fault : Bool), s.time.goodMark v = true → s.time.state ≠ .unset →
    s.eventDue = false ∨ s.time.ticks.val = 0 →
    let forward := 5000000 ≤ s.time.ticks.val
    let source : TickSource := if forward ∧ s.pins.refEdges = true then .reference else s.time.source
    let count := if forward ∧ s.time.state = .holdover then s.time.holdover + 1 else s.time.holdover
    let free := s.time.state = .freeRun ∨ (s.time.state = .holdover ∧ forward ∧ s.time.holdoverLimit ≤ count)
    let moved := { s.time with
      ticks := 0, seconds := if forward then s.time.seconds + 1 else s.time.seconds, markSeen := true, source := source
      holdover := count }
    let locked := { moved with state := .locked, outlierRun := 0, missedRun := 0 }
    ∃ t, exec (.secondMark s.time.ticks.val v fault) s = .next t ∧
      (s.time.state = .acquiring → s.time.goodRun < 2 ∨ source = .localOsc →
        t.time = { moved with goodRun := min 3 (s.time.goodRun + 1) }) ∧
      (s.time.state = .acquiring → 2 ≤ s.time.goodRun → source = .reference → t.time = { locked with goodRun := 3 }) ∧
      (s.time.state = .locked → t.time = locked) ∧
      (s.time.state = .holdover → ¬free → source = .reference → t.time = locked) ∧
      (s.time.state = .holdover → ¬free → source = .localOsc → t.time = { moved with holdover := 0 }) ∧
      (free → t.time = { moved with state := .acquiring, goodRun := 1, outlierRun := 0, missedRun := 0 }) ∧
      (t.time.state ≠ s.time.state → t.engine.latched.getLsbD 7 = true) ∧
      (MuteLaw s → t.emitter.reasons = { s.emitter.reasons with
        time := decide (t.time.state = .acquiring ∨ t.time.state = .freeRun) }) ∧
      (¬forward → t.engine.reports = s.engine.reports ∧ (∀ f, (t.port f).silence = (s.port f).silence) ∧
        ∀ n, (s.counters.get n).source = .millisecond ∨ (s.counters.get n).source = .second →
          t.counters.get n = s.counters.get n) ∧
      (forward →
        (∀ f, (s.port f).state = .tracking → (s.port f).forestalled = false → 1 < (s.port f).silence →
          (t.port f).silence = (s.port f).silence - 1) ∧
        (∀ f, (s.port f).state = .tracking → (s.port f).forestalled = true →
          (t.port f).silence = (s.port f).silence) ∧
        ∀ n, (s.counters.get n).running = true → (s.counters.get n).value ≠ 1 →
          (s.counters.get n).source = .millisecond ∨ (s.counters.get n).source = .second →
          t.counters.get n = { s.counters.get n with value := (s.counters.get n).value - 1 }) ∧
      (s.slots.queue = [] → ¬forward → t.out = s.out ∧ (s.time.state = .locked → t.emitter = s.emitter)) ∧
      t.delay = s.delay ∧ t.clips.pages = s.clips.pages ∧
      (MuteLaw s →
        let now : Stamp := t.time.seconds.extractLsb' 0 8 ++ (0 : BitVec 24)
        let bank := bankAfter .second s.counters.items
        ∃ m v : State, ReasonsTaken s m t.emitter.reasons ∧
          (let back := if forward ∧ s.time.source = .localOsc ∧ s.pins.refEdges = true then m.engine.latch .refClock
             else m.engine
           let g := if t.time.state = s.time.state then back else back.latch .timeState
           let w : State := { m with
             time := t.time, engine := g, openingTaken := decide (s.time.ticks.val = 10000000 - s.time.window) }
           (s.time.ticks.val = 0 → v = w) ∧
           (¬forward → s.time.ticks.val ≠ 0 → AlarmsTested w v t.time.seconds 0 ∧
             v = { w with
               portA := s.portA.later, portB := s.portB.later, alarms := v.alarms, engine := v.engine
               runner := v.runner } ∧
             ((∀ n, (s.alarms.get n).reachedAt t.time.seconds 0 → (s.alarms.get n).list = none) →
               v.runner = s.runner)) ∧
           (forward → MillisecondWork w v t.time.seconds 0 true bank ∧ v.time = t.time ∧
             (∀ n : Fin 4, underflowsAt .second s.counters.items n → v.engine.latched.getLsbD (18 + n.val) = true) ∧
             ((∀ n, ¬pushesAt .second s.counters.items n) →
               BoundaryReported (g.afterSecond s.counters.items) v.engine now ∧
               (NothingPushed s t.time.seconds 0 bank → v.runner = s.runner)))) ∧
          (let reached := ∃ i, v.slots.queue.head? = some i ∧ 0 ≤ diff now (v.slot i).stamp
           (¬reached → t = v) ∧ (reached → v.emitter.state ≠ .muted → exec (.blockStart fault) v = .next t) ∧
           (reached → v.emitter.state = .muted → exec .blockDiscard v = .next t)))) ∧
  ∀ (s : State) (v : Option Word) (fault : Bool), MuteLaw s → QueueLaw s → s.time.goodMark v = false →
    (s.time.state = .acquiring ∨ s.time.state = .holdover ∨ s.time.state = .freeRun ∨
      (s.time.state = .locked ∧ 2 ≤ s.time.outlierRun)) → s.eventDue = false →
    let second := match v with
      | some x => x
      | none => if s.time.ticks.val < 5000000 then s.time.seconds else s.time.seconds + 1
    let now : Stamp := second.extractLsb' 0 8 ++ (0 : BitVec 24)
    let reached := s.slots.queue.filter fun i => decide (0 ≤ diff now (s.slot i).stamp)
    ∃ t, exec (.secondMark s.time.ticks.val v fault) s = .next t ∧
      t.time = { s.time with
        seconds := second, ticks := 0, state := .acquiring, goodRun := 1, outlierRun := 0, missedRun := 0
        markSeen := true
        source := if s.pins.refEdges = true then .reference else s.time.source
        holdover := if s.time.state = .holdover then s.time.holdover + 1 else s.time.holdover } ∧
      t.engine.latched.getLsbD 8 = true ∧ t.emitter.state = .muted ∧
      t.slots.queue = s.slots.queue.filter (fun i => decide (diff now (s.slot i).stamp < 0)) ∧
      (∀ i ∈ reached, t.slot i = Slot.free) ∧
      t.emitter.counts.muteDrops = s.emitter.counts.muteDrops + BitVec.ofNat 32 reached.length ∧
      (reached = [] → t.emitter.phase = ⟨now, 0⟩ ∧ t.out = s.out) ∧
      (∀ l i, reached = l ++ [i] → t.emitter.phase.stamp = (s.slot i).stamp ∧ t.out.cell = some nullCell ∧
        t.out.cells = s.out.cells + 1) ∧
      t.emitter.period = s.emitter.pendingPeriod.getD s.emitter.period ∧ t.emitter.pendingPeriod = none ∧
      t.delay = s.delay ∧ t.clips.pages = s.clips.pages ∧
      (let bank := bankAfter .second s.counters.items
       ∃ m v : State, ReasonsTaken s m { s.emitter.reasons with time := true } ∧
         (let step := m.engine.latch .timeStep
          let back := if s.time.source = .localOsc ∧ s.pins.refEdges = true then step.latch .refClock else step
          let g := if s.time.state = .acquiring then back else back.latch .timeState
          let w : State := { m with
            time := t.time, engine := g
            emitter := { m.emitter with
              phase := ⟨now, 0⟩, period := s.emitter.pendingPeriod.getD s.emitter.period, pendingPeriod := none } }
          MillisecondWork w v second 0 true bank ∧
          (∀ n : Fin 4, underflowsAt .second s.counters.items n → v.engine.latched.getLsbD (18 + n.val) = true) ∧
          ((∀ n, ¬pushesAt .second s.counters.items n) →
            BoundaryReported (g.afterSecond s.counters.items) v.engine now ∧
            (NothingPushed s second 0 bank → v.runner = s.runner))) ∧
         (reached = [] → t = v) ∧
         t.counters.items = Nat.repeat (bankAfter .block) reached.length v.counters.items ∧
         t.alarms = v.alarms ∧
         ∃ x, NoticesTaken v (reached.map fun i => (s.slot i).block) x ∧ t.splice = x.splice ∧
           t.channels = x.channels ∧ t.clips = x.clips ∧ ∀ l, t.label l = x.label l)

/-- R19, R20: the loss of the reference takes the source to LOCAL, and a LOCKED unit to HOLDOVER; edges that resume
are noted, and change nothing else until a second boundary. The pin is held in State by the model's choice: log 6. -/
def Obligations.ReferenceEdgesStopAndResume : Prop :=
  (∀ s : State, exec .refClockResume s = .next { s with pins := { s.pins with refEdges := true } }) ∧
  ∀ s : State, MuteLaw s →
    ∃ t, exec .refClockLoss s = .next t ∧ t.time.source = .localOsc ∧ t.pins = { s.pins with refEdges := false } ∧
      (s.time.source = .localOsc → t = { s with pins := t.pins }) ∧
      (s.time.source = .reference → t.engine.latched.getLsbD 9 = true ∧
        (s.time.state = .locked →
          t.time = { s.time with source := .localOsc, state := .holdover, holdover := 0 } ∧
          t.engine.latched.getLsbD 7 = true) ∧
        (s.time.state ≠ .locked → t.time = { s.time with source := .localOsc }) ∧
        t = { s with pins := t.pins, time := t.time, engine := t.engine })

/-! ### The Emitter (05) -/

/-- R72, R14, R77, R81, R82: a cell time sends a null cell and advances the cell number in MUTED and IDLE, at the end of
the block on air, which frees its slot and enters IDLE, at a read that faults, which is counted, and for a cell that is
not DATA or whose label is DROP. The output fields are the model's own: log 10; the cells that count as unsent where a
cell number is passed over are judged by it: log 12. -/
def Obligations.CellTimeSendsNullCellOffAir : Prop :=
  ∀ s : State, s.cellDue = true → s.headReached = false →
    let j := s.newCellNumber
    let phase : Phase := ⟨s.emitter.phase.stamp, j⟩
    let sent : Outputs := { s.out with cell := some nullCell, cells := s.out.cells + 1 }
    let k := s.emitter.counts
    (∀ fault, (s.emitter.state = .muted ∨ s.emitter.state = .idle) →
      exec (.cellTime fault) s = .next { s with emitter := { s.emitter with phase := phase }, out := sent }) ∧
    ∀ b, s.emitter.state = .block → s.emitter.current = some b →
      let emitted := { s.emitter with
        phase := phase, current := some { b with sent := b.sent + 1 }
        counts := { k with unsent := k.unsent + BitVec.ofNat 32 (j - (s.emitter.phase.cell + 1)) } }
      (b.count ≤ j → ∀ fault, ∃ t, exec (.cellTime fault) s = .next t ∧ t.slot b.slot = Slot.free ∧
        (∀ i, i ≠ b.slot → t.slot i = s.slot i) ∧ t.slots = { s.slots with slots := t.slots.slots } ∧
        (∀ f, t.port f =
          if ((s.slot b.slot).copy f).state = .filling then (s.port f).withdrawn b.slot else s.port f) ∧
        t = { s with
          portA := t.portA, portB := t.portB, slots := t.slots, out := sent
          emitter := { s.emitter with
            state := .idle, timer := 0, phase := phase, current := none
            counts := { k with unsent := k.unsent + BitVec.ofNat 32 (b.count - (s.emitter.phase.cell + 1)) } } }) ∧
      (j < b.count → exec (.cellTime true) s = .next { s with
        emitter := { emitted with counts := { emitted.counts with readFaults := k.readFaults + 1 } }, out := sent }) ∧
      (j < b.count → j < 512 →
        cellIsData (s.delayCell b.slot b.copy j) = false ∨
          (s.label (s.delayCell b.slot b.copy j).label).role = .drop →
        exec (.cellTime false) s = .next { s with emitter := emitted, out := sent })

/-- R81, R84, R3: in BLOCK a DATA cell of a PASS label leaves with its own sequence, carrying the pending
discontinuity. Of the rest of the Emitter only the phase reference's cell number and the block's cells sent move. The
output fields are the model's own: log 10; that its two spare bits leave as received is the model's reading: log 31. -/
def Obligations.PassedCellKeepsItsSequence : Prop :=
  ∀ (s : State) (b : CurrentBlock) (c : Cell), s.emitter.state = .block → s.emitter.current = some b →
    s.cellDue = true → s.headReached = false → s.newCellNumber = s.emitter.phase.cell + 1 →
    s.newCellNumber < b.count → s.newCellNumber < 512 → s.delayCell b.slot b.copy s.newCellNumber = c →
    cellIsData c = true → (s.label c.label).role = .pass →
    ∃ t, exec (.cellTime false) s = .next t ∧
      t.out.cell = some { c with disc := c.disc || (s.label c.label).pending } ∧ t.out.cells = s.out.cells + 1 ∧
      t.label c.label = { s.label c.label with
        lastSeq := some c.seq, pending := false, emitted := (s.label c.label).emitted + 1 } ∧
      (∀ l, l ≠ c.label → t.label l = s.label l) ∧
      t.emitter = { s.emitter with
        phase := ⟨s.emitter.phase.stamp, s.newCellNumber⟩, current := some { b with sent := b.sent + 1 }
        labels := t.emitter.labels } ∧
      t.out = { s.out with cell := t.out.cell, cells := s.out.cells + 1 } ∧
      t = { s with emitter := t.emitter, out := t.out }

/-- R81, R85, R128, R143, R151, R152, R187: in BLOCK a DATA cell of a SERVICE label gives its place, inside the window
of an ACTIVE break, to the head of the service's Playout Queue: a DATA cell leaves with the sequence after its own
label's last, a null entry as it is, and an empty queue or a faulted break gives a null cell. Outside such a window,
and once a cancel is requested, the programme's own cell passes. R89: in FALLBACK every cell time takes the head of
Playout Queue 8 in the same way, a new pass of the clip setting the discontinuity flag. R122: after each take the
channel issues a fetch, of its clip, first cell, count and generation, exactly when the conditions hold. The output
fields are the model's own: log 10; the spare bits of a cell that passes stay as received: log 31. -/
def Obligations.SubstitutedSlotCarriesTheQueuedCell : Prop :=
  (∀ (s : State) (fault : Bool), s.emitter.state = .fallback → s.cellDue = true → s.headReached = false →
    ∃ t, exec (.cellTime fault) s = .next t ∧ FallbackCellSent s t ∧
      t.out = { s.out with cell := t.out.cell, cells := s.out.cells + 1 } ∧
      t.emitter = { s.emitter with
        phase := ⟨s.emitter.phase.stamp, s.newCellNumber⟩, labels := t.emitter.labels } ∧
      t = { s with emitter := t.emitter, out := t.out, channels := t.channels, clips := t.clips }) ∧
  ∀ (s : State) (b : CurrentBlock) (c : Cell) (n : Fin 8), s.emitter.state = .block → s.emitter.current = some b →
    s.cellDue = true → s.headReached = false → s.newCellNumber = s.emitter.phase.cell + 1 →
    s.newCellNumber < b.count → s.newCellNumber < 512 → s.delayCell b.slot b.copy s.newCellNumber = c →
    cellIsData c = true → (s.label c.label).role = .service → (s.label c.label).service.toNat = n.val →
    let due := dueTime s.emitter.phase s.emitter.period s.newCellNumber
    ∃ t, exec (.cellTime false) s = .next t ∧ ServiceCellSent s t n b.block due c ∧
      t.out = { s.out with cell := t.out.cell, cells := s.out.cells + 1 } ∧
      t.emitter = { s.emitter with
        phase := ⟨s.emitter.phase.stamp, s.newCellNumber⟩, current := some { b with sent := b.sent + 1 }
        labels := t.emitter.labels } ∧
      t = { s with
        emitter := t.emitter, out := t.out, channels := t.channels, clips := t.clips, splice := t.splice }

/-- R73, R75, R63, R14: at a start every queued block whose stamp has been reached leaves the queue. One reached at its
stamp starts at cell 0: its slot is EMITTING, a FILLING copy of it is BAD and withdrawn, the chosen copy's feed becomes
the active one, with a feed switch counted when the other was. R76, R77: the block on air leaves the air, as an overrun
when cells of it were still to come. R90: FALLBACK ends at a start, channel 8 flushed and the labels of its map
pending. R78, R158: each block taken pulses the BLOCK counters. R145 to R149: the Splice Unit takes each notice in
turn, that of the block that starts after fallback has ended and before its first cell. R73, R81: that cell, where its
read does not fault, is classified as the Splice Unit stands by then. That BLOCK_START given with a stamp already
passed is taken by R80, which speaks of a stamp reached at a correction, set or step, is the model's deduction: log 26.
By it all the reached blocks but the last are skipped, and the last starts at its cell j, the largest whose due time
has been reached, or is skipped too, past its last cell. `sent` counts cells actually sent and the unsent cells are
judged by the cell number, by the model's choice: log 12; the output fields are its own: log 10; the row brought to the
stamp: log 3; a read past the copy's area: log 9; a notice at the Splice Unit before the counters: log 4; the flush of
an entry once primed: log 33; the spare bits of a cell that passes: log 31. -/
def Obligations.BlockStartsAtItsStamp : Prop :=
  ∀ (s : State) (l : List (Fin 256)) (i : Fin 256) (rest : List (Fin 256)) (fault : Bool) (j : Nat), QueueLaw s →
    s.emitter.state ≠ .muted → s.slots.queue = l ++ i :: rest →
    (∀ k ∈ l, 0 ≤ diff s.now (s.slot k).stamp) → 0 ≤ diff s.now (s.slot i).stamp →
    (∀ k, rest.head? = some k → diff s.now (s.slot k).stamp < 0) →
    let sl := s.slot i
    let period := s.emitter.pendingPeriod.getD s.emitter.period
    dueOffset period j ≤ (diff s.now sl.stamp).toNat → (diff s.now sl.stamp).toNat < dueOffset period (j + 1) →
    let left := match s.emitter.current with
      | some b => b.count - (s.emitter.phase.cell + 1)
      | none => 0
    let k := s.emitter.counts
    ∃ t, exec (.blockStart fault) s = .next t ∧ t.slots.queue = rest ∧ (∀ q ∈ l, t.slot q = Slot.free) ∧
      (∀ b, s.emitter.current = some b → t.slot b.slot = Slot.free) ∧
      (∀ q, q ≠ i → q ∉ l → (∀ b, s.emitter.current = some b → q ≠ b.slot) → t.slot q = s.slot q) ∧
      (0 < left ∨ l ≠ [] ∨ sl.count ≤ j → t.engine.latched.getLsbD Event.overrun.position = true) ∧
      t.emitter.phase = ⟨sl.stamp, j⟩ ∧ t.emitter.period = period ∧ t.emitter.pendingPeriod = none ∧
      t.splice.lastNoticed = some sl.block ∧ t.out.cells = s.out.cells + 1 ∧
      t.time = s.time ∧ t.delay = s.delay ∧ t.clips.pages = s.clips.pages ∧
      (let bank := fun (k : Nat) => Nat.repeat (bankAfter .block) k s.counters.items
       t.counters.items = bank (l.length + 1) ∧
       (∀ (k : Nat) (n : Fin 4), k ≤ l.length → underflowsAt .block (bank k) n →
          t.engine.latched.getLsbD (18 + n.val) = true) ∧
       ((∀ k n, k ≤ l.length → ¬pushesAt .block (bank k) n) → t.runner = s.runner)) ∧
      (sl.count ≤ j → t.slot i = Slot.free ∧ t.emitter.current = none ∧ t.emitter.activeFeed = s.emitter.activeFeed ∧
        t.emitter.counts = { k with
          overruns := if 0 < left then k.overruns + 1 else k.overruns
          skipped := k.skipped + BitVec.ofNat 32 (l.length + 1), unsent := k.unsent + BitVec.ofNat 32 left } ∧
        (s.emitter.state ≠ .fallback → t.emitter.state = .idle ∧ t.out.cell = some nullCell) ∧
        (s.emitter.state = .block → t.emitter.timer = 0) ∧
        (s.emitter.state = .fallback → t.emitter.state = .fallback) ∧
        ∃ w, NoticesTaken s ((l ++ [i]).map fun q => (s.slot q).block) w ∧ t.splice = w.splice ∧
          (s.emitter.state = .fallback → FallbackCellSent w t) ∧
          (s.emitter.state ≠ .fallback → t.channels = w.channels ∧ t.clips = w.clips ∧ ∀ x, t.label x = w.label x)) ∧
      (j < sl.count → ∃ f,
        ((sl.copy s.feeds.preferred).state = .good → f = s.feeds.preferred) ∧
        ((sl.copy s.feeds.preferred).state ≠ .good → f = otherFeed s.feeds.preferred) ∧
        t.emitter.state = .block ∧ t.emitter.timer = 0 ∧ t.emitter.activeFeed = some f ∧
        t.emitter.current = some ⟨i, sl.block, sl.count, f, 1⟩ ∧
        t.emitter.counts = { k with
          started := k.started + 1
          overruns := if 0 < left then k.overruns + 1 else k.overruns
          skipped := k.skipped + BitVec.ofNat 32 l.length
          unsent := k.unsent + BitVec.ofNat 32 (left + j)
          readFaults := if fault = true ∨ 512 ≤ j then k.readFaults + 1 else k.readFaults
          feedSwitches := if s.emitter.activeFeed = some (otherFeed f) then k.feedSwitches + 1 else k.feedSwitches } ∧
        (s.emitter.activeFeed = some (otherFeed f) → t.engine.latched.getLsbD Event.feedSwitch.position = true) ∧
        (∃ w v u : State, NoticesTaken s (l.map fun q => (s.slot q).block) w ∧
          FallbackLeft w v (s.emitter.state = .fallback) ∧ NoticeTaken v u sl.block ∧ u.out = s.out ∧
          (fault = true ∨ 512 ≤ j → NullCellSent u t ∧ t = { u with out := t.out }) ∧
          (fault = false → j < 512 →
            BlockCellSent u t sl.block (dueTime ⟨sl.stamp, j⟩ period j) (s.delayCell i f j))) ∧
        (let stopped := fun (c : Copy) => (if c.state = .filling then ⟨.bad, c.received⟩ else c : Copy)
         t.slot i = { sl with state := .emitting, copyA := stopped sl.copyA, copyB := stopped sl.copyB }) ∧
        (l = [] → s.emitter.current = none → ∀ g,
          t.port g = if (sl.copy g).state = .filling then (s.port g).withdrawn i else s.port g) ∧
        (s.emitter.state = .fallback → t.channel 8 = (s.channel 8).parkedBy 1 ∧
          ∀ x, some x ∈ s.emitter.fallbackMap.items → t.out.cell.map Cell.label ≠ some x → (t.label x).pending = true) ∧
        (s.emitter.state ≠ .fallback → t.channel 8 = s.channel 8))

/-- R79: in MUTED a reached block is discarded with a notice, and a null cell leaves. R145 to R149: the Splice Unit
takes the notice, which arms, activates and ends the breaks of each schedule. R78, R158, R159: the notice pulses the
counters of source BLOCK. The output fields are the model's own: log 10; that an entry demoted from ARMED has the
channel flushed again when it leaves is read from R129: log 33; the notice at the Splice Unit before the counters: log
4. -/
def Obligations.MutedBlockIsDiscarded : Prop :=
  ∀ (s : State) (i : Fin 256) (rest : List (Fin 256)), s.emitter.state = .muted →
    s.slots.queue = i :: rest → diff s.now (s.slot i).stamp = 0 →
    (∀ j, rest.head? = some j → s.reached (s.slot j).stamp = false) →
    65536 ≤ s.emitter.pendingPeriod.getD s.emitter.period → i ∉ rest →
    ∃ t, exec .blockDiscard s = .next t ∧
      t.slots.queue = rest ∧ t.slot i = Slot.free ∧ t.emitter.state = .muted ∧
      t.emitter.phase = ⟨(s.slot i).stamp, 0⟩ ∧
      t.emitter.counts = { s.emitter.counts with muteDrops := s.emitter.counts.muteDrops + 1 } ∧
      t.emitter.activeFeed = s.emitter.activeFeed ∧ t.splice.lastNoticed = some (s.slot i).block ∧
      NoticeTaken s t (s.slot i).block ∧
      t.counters.items = bankAfter .block s.counters.items ∧
      (∀ n : Fin 4, underflowsAt .block s.counters.items n → t.engine.latched.getLsbD (18 + n.val) = true) ∧
      ((∀ n, ¬pushesAt .block s.counters.items n) → t.runner = s.runner) ∧
      t.out.cell = some nullCell ∧ t.out.cells = s.out.cells + 1 ∧
      t.time = s.time ∧ t.delay = s.delay ∧ t.clips.pages = s.clips.pages

/-- R87, R88, R121: the timer that reaches the delay in IDLE is held, and fallback begins, there or at a later test,
exactly when the conditions hold: FALLBACK is latched, and channel 8 is primed and issues its first fetch (R122). Short
of the delay, with a condition failing at FALLBACK_ENTRY, or outside IDLE nothing begins. FALLBACK_TIMER_EXPIRY as the
Emitter's own part of a millisecond event, FALLBACK_ENTRY at any tick, and a row whose condition fails changing nothing
are the model's choice: log 1; a timer above a shorter delay is lowered to it: log 34. -/
def Obligations.FallbackBeginsWhenAllowed : Prop :=
  ∀ s : State,
    let allowed := s.emitter.fallbackEnable = true ∧
      (∃ n, s.emitter.fallbackClip = some n ∧ (s.clip n).state = .ready) ∧
      (s.time.state = .locked ∨ s.time.state = .holdover)
    (s.emitter.state ≠ .idle → exec .fallbackTimerExpiry s = .next s ∧ exec .fallbackEntry s = .next s) ∧
    (s.emitter.timer + 1 < s.emitter.fallbackDelay → exec .fallbackTimerExpiry s = .next s) ∧
    (s.emitter.timer < s.emitter.fallbackDelay ∨ ¬allowed → exec .fallbackEntry s = .next s) ∧
    (s.emitter.state = .idle →
      (s.emitter.fallbackDelay ≤ s.emitter.timer + 1 → ¬allowed →
        exec .fallbackTimerExpiry s =
          .next { s with emitter := { s.emitter with timer := s.emitter.fallbackDelay } }) ∧
      (∀ n, s.emitter.fallbackEnable = true → s.emitter.fallbackClip = some n → (s.clip n).state = .ready →
        (s.time.state = .locked ∨ s.time.state = .holdover) →
        ∀ c, (c = Instr.fallbackTimerExpiry ∧ s.emitter.fallbackDelay ≤ s.emitter.timer + 1) ∨
            (c = Instr.fallbackEntry ∧ s.emitter.fallbackDelay ≤ s.emitter.timer) →
        ∃ t, exec c s = .next t ∧ t.emitter.state = .fallback ∧ t.emitter.phase = s.emitter.phase ∧
          t.emitter.activeFeed = s.emitter.activeFeed ∧
          t.emitter.counts = { s.emitter.counts with fallbackEntries := s.emitter.counts.fallbackEntries + 1 } ∧
          t.engine = s.engine.latch .fallback ∧
          FetchTested s t 8 { (s.channel 8).parkedBy 1 with
            state := .priming, clips := [n], labelMap := some s.emitter.fallbackMap, base := s.now } ∧
          t.clips = { s.clips with reads := t.clips.reads } ∧ (∀ k, k ≠ 8 → t.channel k = s.channel k) ∧
          t = { s with emitter := t.emitter, engine := t.engine, channels := t.channels, clips := t.clips }))

/-! ### Clip Store and Playout Queues (06, 07) -/

/-- R101 to R107, R114: a LOAD cell taken, judged against its clip's entry. The expected segment of a LOADING clip is
written, checked and counted, and the last one completes the load or fails it; one below or above the expected one is a
repeat or a gap; a READY or EMPTY entry counts a repeat, and a number above 127 an unknown clip. Where the write faults
nothing but written, a count and the fault record changes, and each byte there is new or as it was: the bytes reached
are a free value, log 8. -/
def Obligations.ExpectedSegmentIsWritten : Prop :=
  ∀ (s : State) (p : Payload) (rest : List Payload) (fault : Bool), s.clips.intake = p :: rest →
    let k := { s.clips.counts with loadCells := s.clips.counts.loadCells + 1 }
    let taken : State := { s with clips := { s.clips with intake := rest, counts := k } }
    (128 ≤ (loadClip p).toNat → exec (.loadCellTaken fault) s =
      .next { s with clips := { s.clips with intake := rest, counts := { k with unknownClips := k.unknownClips + 1 } } }) ∧
    ∀ n : Fin 128, (loadClip p).toNat = n.val →
      let e := s.clip n
      let a := e.basePage * 63488 + e.nextSegment * 232
      let bytes := (loadData p).take (segmentLength e.cells e.nextSegment)
      let check := crcFrom e.runningCheck bytes
      let total := (e.cells * 248 + 231) / 232
      (e.state ≠ .loading ∨ loadSegment p < e.nextSegment → exec (.loadCellTaken fault) s =
        .next (taken.setClip n { e with repeats := e.repeats + 1 })) ∧
      (e.state = .loading → e.nextSegment < loadSegment p → exec (.loadCellTaken fault) s =
        .next (taken.setClip n { e with gaps := e.gaps + 1 })) ∧
      (e.state = .loading → loadSegment p = e.nextSegment → a + bytes.length ≤ 260046848 → fault = false →
        ∃ t, exec (.loadCellTaken fault) s = .next t ∧
          (e.nextSegment + 1 ≠ total → t.engine = s.engine ∧
            t.clip n = { e with nextSegment := e.nextSegment + 1, runningCheck := check, written := true }) ∧
          (e.nextSegment + 1 = total → check = e.declaredCheck → t.engine = s.engine.latch .clipReady ∧
            t.clip n =
              { e with state := .ready, nextSegment := e.nextSegment + 1, runningCheck := check, written := true }) ∧
          (e.nextSegment + 1 = total → check ≠ e.declaredCheck → t.engine = s.engine.latch .clipFailed ∧
            t.clip n =
              { e with nextSegment := 0, runningCheck := 0xFFFFFFFF, written := true, failures := e.failures + 1 }) ∧
          (∀ j, j ≠ n → t.clip j = s.clip j) ∧
          (∀ x, memRead t.clips.pages x =
            if a ≤ x ∧ x < a + bytes.length then bytes.getD (x - a) 0 else memRead s.clips.pages x) ∧
          t = { s with engine := t.engine, clips := { s.clips with
            entries := t.clips.entries, pages := t.clips.pages, intake := rest
            counts := { k with segmentsWritten := k.segmentsWritten + 1 } } }) ∧
      (e.state = .loading → loadSegment p = e.nextSegment → fault = true →
        ∃ t, exec (.loadCellTaken fault) s = .next t ∧ t.clip n = { e with written := true } ∧
          (∀ j, j ≠ n → t.clip j = s.clip j) ∧
          (∀ x, memRead t.clips.pages x = memRead s.clips.pages x ∨
            (a ≤ x ∧ x < a + bytes.length ∧ memRead t.clips.pages x = bytes.getD (x - a) 0)) ∧
          (s.clips.record.frozen = false → t.engine = s.engine.latch .clipFault ∧ t.clips.record =
            ⟨true, some .writeError, some .load, some n, some e.nextSegment, none,
              s.emitter.current.map CurrentBlock.block, s.clips.record.whileFrozen⟩) ∧
          (s.clips.record.frozen = true → t.engine = s.engine ∧
            t.clips.record = { s.clips.record with whileFrozen := s.clips.record.whileFrozen + 1 }) ∧
          t = { s with engine := t.engine, faultCount := s.faultCount + 1, clips := { s.clips with
            entries := t.clips.entries, pages := t.clips.pages, intake := rest, record := t.clips.record
            counts := { k with writeFaults := k.writeFaults + 1 } } })

/-- R111, R112, R114, R126: a read that ends under an old generation reaches no channel: without fault it sets played,
but on an EMPTY entry; with a fault it fills a record that is not frozen and latches CLIP_FAULT, or is counted on a
frozen one, with no event. R122 to R125: one that ends without fault under the current generation queues one finished
entry for each cell, behind those already queued, counts the malformed cells and the invalid times, and moves the fetch
pointer on, within the clip, to the next clip, round the fallback clip, or to the list's end; the channel is then
tested for its next fetch, which it issues, of its clip, first cell, count and generation, exactly when the conditions
of R122 hold. R112, R114, R127, R150, R148, R91: one that ends with a fault there is entered by the Clip Store, halts
its channel and reaches the owner: an ARMED head leaves MISSED and the next is tested, an ACTIVE one is faulted,
fallback ends with its enable off, and any other report is ignored. R149, R129: an entry that leaves there, or at the
test of the next head, has the channel flushed where it had been primed; that this flushes it again for one demoted
before is read from R129: log 33. The flag that makes a read stale, the pages read at completion, and an in-flight count
of 0 once no fetch is in flight are the model's choice: logs 16, 24, 35. -/
def Obligations.ReadEndsByItsGeneration : Prop :=
  (∀ (s : State) (index : Nat) (r : FetchRead), s.clips.reads[index]? = some r →
    (r.stale = true ∨ r.generation ≠ (s.channel r.channel).generation) →
    (outsideStore r.basePage (r.first * 248) (r.count * 248) = false →
      let taken : State := { s with clips := { s.clips with reads := s.clips.reads.eraseIdx index } }
      ((s.clip r.clip).state = .empty → exec (.fetchReadCompletes index false) s = .next taken) ∧
      ((s.clip r.clip).state ≠ .empty → exec (.fetchReadCompletes index false) s =
        .next (taken.setClip r.clip { s.clip r.clip with played := true }))) ∧
    (s.clips.record.frozen = true → exec (.fetchReadCompletes index true) s =
      .next { s with clips := { s.clips with
        reads := s.clips.reads.eraseIdx index
        record := { s.clips.record with whileFrozen := s.clips.record.whileFrozen + 1 }
        counts := { s.clips.counts with readFaults := s.clips.counts.readFaults + 1 } } }) ∧
    (s.clips.record.frozen = false →
      ∃ t, exec (.fetchReadCompletes index true) s = .next t ∧
        t.clips = { s.clips with
          reads := s.clips.reads.eraseIdx index
          record := ⟨true, some .readError, some .fetch, some r.clip, some r.first, some r.channel,
            s.emitter.current.map CurrentBlock.block, s.clips.record.whileFrozen⟩
          counts := { s.clips.counts with readFaults := s.clips.counts.readFaults + 1 } } ∧
        t.engine.latched.getLsbD 15 = true ∧ t = { s with clips := t.clips, engine := t.engine })) ∧
  (∀ (s : State) (index : Nat) (r : FetchRead), s.clips.reads[index]? = some r → r.stale = false →
    r.generation = (s.channel r.channel).generation →
    let c := s.channel r.channel
    let k := s.clips.counts
    let failed : State := { s with
      clips := { s.clips with
        reads := s.clips.reads.eraseIdx index, counts := { k with readFaults := k.readFaults + 1 }
        record := if s.clips.record.frozen = true
          then { s.clips.record with whileFrozen := s.clips.record.whileFrozen + 1 }
          else ⟨true, some .readError, some .fetch, some r.clip, some r.first, some r.channel,
            s.emitter.current.map CurrentBlock.block, s.clips.record.whileFrozen⟩ }
      engine := if s.clips.record.frozen = true then s.engine else s.engine.latch .clipFault
      channels := s.channels.set r.channel { c with halted := true, inFlight := false, inFlightCount := 0 } }
    (∀ n : Fin 8, r.channel = serviceChannel n →
      ((∀ e, (s.schedule n).head? = some e →
          e.primeGeneration ≠ some r.generation ∨ (e.state ≠ .armed ∧ e.state ≠ .active)) →
        exec (.fetchReadCompletes index true) s = .next failed) ∧
      ∀ e rest, s.schedule n = e :: rest → e.primeGeneration = some r.generation →
        (e.state = .active → exec (.fetchReadCompletes index true) s =
          .next (failed.setSchedule n ({ e with faulted := true } :: rest))) ∧
        (e.state = .armed → ∃ u t : State, exec (.fetchReadCompletes index true) s = .next t ∧ HeadTestMade u t n ∧
          u.schedule n = rest ∧ (∀ j, j ≠ n → u.schedule j = s.schedule j) ∧
          u.channel r.channel = c.parkedBy 1 ∧ (∀ j, j ≠ r.channel → u.channel j = s.channel j) ∧
          u.splice = { s.splice with
            schedules := u.splice.schedules, lastAsRun := s.splice.lastAsRun + 1
            asRun := s.splice.recorded s.splice.lastNoticed [(n, e, .missed, .clipFault)] } ∧
          (∀ j, u.clip j = { s.clip j with useCount := (s.clip j).useCount - e.clips.count j }) ∧
          u = { failed with
            splice := u.splice, clips := { failed.clips with entries := u.clips.entries }, channels := u.channels
            engine := failed.engine.latch .breakDone })) ∧
    (r.channel = 8 →
      (s.emitter.state ≠ .fallback → exec (.fetchReadCompletes index true) s = .next failed) ∧
      (s.emitter.state = .fallback → ∃ t, exec (.fetchReadCompletes index true) s = .next t ∧
        t.channel 8 = c.parkedBy 1 ∧ (∀ j, j ≠ 8 → t.channel j = s.channel j) ∧
        t.emitter = { s.emitter with
          state := .idle, timer := 0, fallbackEnable := false, labels := t.emitter.labels
          counts := { s.emitter.counts with fallbackFaults := s.emitter.counts.fallbackFaults + 1 } } ∧
        (∀ l, t.label l = if some l ∈ s.emitter.fallbackMap.items then { s.label l with pending := true } else s.label l) ∧
        t = { failed with channels := t.channels, emitter := t.emitter }))) ∧
  ∀ (s : State) (index : Nat) (r : FetchRead), s.clips.reads[index]? = some r → r.stale = false →
    r.generation = (s.channel r.channel).generation →
    outsideStore r.basePage (r.first * 248) (r.count * 248) = false →
    let c := s.channel r.channel
    let e := s.clip r.clip
    let cell := fun (i : Nat) => s.clipCell r.basePage (r.first + i)
    let malformed := fun (i : Nat) => !(cellIsData (cell i)) || decide (3 < (cell i).label.toNat)
    let mapped := fun (i : Nat) => (c.labelMap.bind fun m => (index? 4 (cell i).label.toNat).bind m.get).isSome
    let invalid := fun (i : Nat) => !(malformed i) && mapped i && (cell i).unitStart && !(stampValid (cell i).unitTime)
    let place := c.cellIndex + r.count
    ∃ t new, exec (.fetchReadCompletes index false) s = .next t ∧
      new.length = r.count ∧
      (∀ i, i < r.count → new[i]? = some ⟨finishedCell c e.origin (cell i), c.listIndex,
        decide (r.first + i + 1 = e.cells), decide (r.channel = 8) && c.passMarkDue && decide (i = 0)⟩) ∧
      (let d : Channel := { c with
         queue := c.queue ++ new
         malformed := c.malformed + BitVec.ofNat 32 ((List.range r.count).countP malformed)
         invalidTimes := c.invalidTimes + BitVec.ofNat 32 ((List.range r.count).countP invalid)
         passMarkDue := decide (r.channel = 8) && decide (place = e.cells), inFlight := false, inFlightCount := 0 }
       let left := FetchTested { s with clips := { s.clips with reads := s.clips.reads.eraseIdx index } } t r.channel
       (place ≠ e.cells → left { d with cellIndex := place }) ∧
       (place = e.cells → r.channel = 8 → left { d with cellIndex := 0, base := addTicks c.base e.duration }) ∧
       (place = e.cells → r.channel ≠ 8 → c.listIndex + 1 < c.clips.length →
          left { d with listIndex := c.listIndex + 1, cellIndex := 0, base := addTicks c.base e.duration }) ∧
       (place = e.cells → r.channel ≠ 8 → c.clips.length ≤ c.listIndex + 1 →
          left { d with cellIndex := place, exhausted := true })) ∧
      t.clip r.clip = (if e.state = .empty then e else { e with played := true }) ∧ (∀ k, k ≠ r.clip → t.clip k = s.clip k) ∧
      (∀ k, k ≠ r.channel → t.channel k = s.channel k) ∧
      t = { s with clips := { s.clips with entries := t.clips.entries, reads := t.clips.reads }, channels := t.channels }

/-- R98, R99: an accepted CLIP_DEFINE makes the entry LOADING with its fields; its counts stay. A refused one is
answered by the first of the five tests that fails. -/
def Obligations.ClipDefineMakesTheEntryLoading : Prop :=
  (∀ (s : State) (tag : Half) (clip : Byte) (base pages : Half) (cells org duration check : Word),
    let refused := fun (st : Status) =>
      exec (.clipDefine (.cell tag) clip base pages cells org duration check) s =
        .next { s with engine := (s.engine.counted .intake).answered tag 4 st [] }
    let outside := 4095 < base.toNat ∨ pages.toNat < 1 ∨ 4096 < pages.toNat ∨ cells.toNat < 1 ∨
      1048576 < cells.toNat ∨ stampValid org = false ∨ 1280000000 < duration.toNat
    let unfit := pages.toNat < (cells.toNat + 255) / 256 ∨ 4096 < base.toNat + pages.toNat
    let shared := ∃ k, (s.clip k).state ≠ .empty ∧ (s.clip k).basePage < base.toNat + pages.toNat ∧
      base.toNat < (s.clip k).basePage + (s.clip k).pages
    (128 ≤ clip.toNat → refused .badField) ∧
    ∀ n : Fin 128, clip.toNat = n.val →
      ((s.clip n).state ≠ .empty → refused .busy) ∧
      ((s.clip n).state = .empty → outside ∨ unfit → refused .badField) ∧
      ((s.clip n).state = .empty → ¬outside → ¬unfit → shared → refused .overlap)) ∧
  ∀ (s : State) (tag : Half) (n : Fin 128) (base pages : Half) (cells org duration check : Word),
    (s.clip n).state = .empty → 1 ≤ pages.toNat → 1 ≤ cells.toNat → cells.toNat ≤ 1048576 →
    stampValid org = true → duration.toNat ≤ 1280000000 → (cells.toNat + 255) / 256 ≤ pages.toNat →
    base.toNat + pages.toNat ≤ 4096 →
    (∀ k, (s.clip k).state ≠ .empty →
      (s.clip k).basePage + (s.clip k).pages ≤ base.toNat ∨ base.toNat + pages.toNat ≤ (s.clip k).basePage) →
    exec (.clipDefine (.cell tag) (BitVec.ofNat 8 n.val) base pages cells org duration check) s =
      .next { (s.setClip n { s.clip n with
          state := .loading, basePage := base.toNat, pages := pages.toNat, cells := cells.toNat, origin := org
          duration := duration.toNat, declaredCheck := check, nextSegment := 0, runningCheck := 0xFFFFFFFF
          played := false, written := false }) with
        engine := (s.engine.counted .intake).answered tag 4 .ok [] }

/-- R97, R100, R113, R115: CLIP_RELEASE empties an unused entry, and is refused, changing nothing else, on an EMPTY or
a used one, or for a clip number above 127; CLIP_FAULT returns the fault record and clears it. -/
def Obligations.ClipReleaseAndClipFaultClear : Prop :=
  ∀ (s : State) (tag : Half),
    let g := s.engine.counted .intake
    (∀ n : Fin 128, exec (.clipRelease (.cell tag) (BitVec.ofNat 8 n.val)) s =
      if (s.clip n).state = .empty then .next { s with engine := g.answered tag 5 .state [] }
      else if 0 < (s.clip n).useCount then .next { s with engine := g.answered tag 5 .busy [] }
      else .next { (s.setClip n ⟨.empty, 0, 1, 1, 0, 0, 0, 0, 0xFFFFFFFF, 0, false, false, 0, 0, 0⟩) with
        engine := g.answered tag 5 .ok [] }) ∧
    (∀ clip : Byte, 127 < clip.toNat →
      exec (.clipRelease (.cell tag) clip) s = .next { s with engine := g.answered tag 5 .badField [] }) ∧
    exec (.clipFault (.cell tag)) s =
      .next { s with
        clips := { s.clips with record := ⟨false, none, none, none, none, none, none, 0⟩ }
        engine := g.answered tag 9 .ok s.clips.record.bytes }

/-! ### Cues and breaks (08) -/

/-- R136 to R144: a cue for no service, or of no known action, is a bad cue, counted and latched and nothing else. A
SCHEDULE cue is ignored with splicing off, without a Break Map entry, or where it says what the schedule holds; is
refused with the first of the seven reasons that holds, counted and latched; or enters the schedule in in-block order,
as a new break or in place of one not yet armed, claiming its clips and displacing an ARMED head with a flush. A CANCEL
cue is ignored without such a break. The head tests that follow are R148's. Windows that share a block by the test of
log 19; insertion behind an ACTIVE head, log 20; that an entry replaced keeps its prime generation is read from R140:
log 25; a flush at a cancel, log 33. -/
def Obligations.TakenCueIsJudged : Prop :=
  ∀ (s : State) (p : Payload) (rest : List Payload), s.splice.intake = p :: rest →
    let c := readCue p
    let taken : State := { s with splice := { s.splice with intake := rest } }
    (7 < c.service.toNat ∨ (c.action ≠ 1 ∧ c.action ≠ 2) → exec .cueTaken s =
      .next { taken with
        splice := { taken.splice with badCues := s.splice.badCues + 1 }, engine := s.engine.latch .cueRefused }) ∧
    ∀ n : Fin 8, c.service.toNat = n.val →
      let v := s.service n
      let ignored := taken.setService n { v with ignored := v.ignored + 1 }
      let refused := fun (r : CueRefusal) =>
        ({ taken.setService n { v with refused := v.refused + 1, lastRefusal := some (r, c.breakId) } with
          engine := s.engine.latch .cueRefused } : State)
      let found := (s.schedule n).find? fun e => decide (e.breakId = c.breakId)
      let length := windowLength c.inBlock c.outBlock
      (c.action = 2 →
        (found = none → exec .cueTaken s = .next ignored) ∧
        ∀ e, found = some e → ∃ t, exec .cueTaken s = .next t ∧ CancelTaken taken t n e) ∧
      (c.action = 1 → v.enable = false ∨ s.lookupBreak n c.breakId = none → exec .cueTaken s = .next ignored) ∧
      ∀ m, c.action = 1 → v.enable = true → s.lookupBreak n c.breakId = some m →
        let same := fun (e : ScheduleEntry) => e.inBlock = c.inBlock ∧ e.outBlock = c.outBlock ∧ e.pt = c.pt ∧
          e.clips = m.clips ∧ e.labelMap = m.labelMap
        (stampValid c.pt = false → exec .cueTaken s = .next (refused .badTime)) ∧
        (stampValid c.pt = true → length < 1 ∨ 4096 < length → exec .cueTaken s = .next (refused .badRange)) ∧
        (stampValid c.pt = true → 1 ≤ length → length ≤ 4096 →
          (∀ b, s.splice.lastNoticed = some b → precedes b c.inBlock = false →
            exec .cueTaken s = .next (refused .late)) ∧
          ((∀ b, s.splice.lastNoticed = some b → precedes b c.inBlock = true) →
            (∀ e, found = some e → (same e → exec .cueTaken s = .next ignored) ∧
              (¬same e → e.state = .armed ∨ e.state = .active → exec .cueTaken s = .next (refused .state))) ∧
            ∀ old, found = old → (∀ e, old = some e → ¬same e ∧ (e.state = .pending ∨ e.state = .arming)) →
              let others := (s.schedule n).filter fun e => decide (e.breakId ≠ c.breakId)
              let meets := ∃ x ∈ others, windowHolds c.inBlock c.outBlock x.inBlock = true ∨
                windowHolds x.inBlock x.outBlock c.inBlock = true
              let absent := ∃ k ∈ m.clips, (s.clip k).state = .empty
              (absent → exec .cueTaken s = .next (refused .clipAbsent)) ∧
              (¬absent → meets → exec .cueTaken s = .next (refused .overlap)) ∧
              (¬absent → ¬meets → old = none → 4 ≤ others.length → exec .cueTaken s = .next (refused .full)) ∧
              (¬absent → ¬meets → (old = none → others.length < 4) →
                ∃ (u t : State) (before after : List ScheduleEntry),
                  exec .cueTaken s = .next t ∧ HeadTestMade u t n ∧
                  others = before ++ after ∧
                  (∀ x ∈ before, x.state = .active ∨ precedes c.inBlock x.inBlock = false) ∧
                  (∀ x, after.head? = some x → x.state ≠ .active ∧ precedes c.inBlock x.inBlock = true) ∧
                  let placed := before ++ (⟨c.breakId, c.inBlock, c.outBlock, c.pt, m.clips, m.labelMap, .pending,
                    old.bind ScheduleEntry.primeGeneration, false, false, 0, 0, 0, none⟩ : ScheduleEntry) :: after
                  let displaced := ∃ h, (s.schedule n).head? = some h ∧ h.state = .armed ∧
                    placed.head?.map ScheduleEntry.breakId ≠ some h.breakId
                  let ch := serviceChannel n
                  u.schedule n =
                    (placed.mapIdx fun k x => if k = 0 ∨ x.state = .active then x else { x with state := .pending }) ∧
                  (∀ k, k ≠ n → u.schedule k = s.schedule k) ∧
                  (displaced → u.channel ch = (s.channel ch).parkedBy 1) ∧
                  (¬displaced → u.channel ch = s.channel ch) ∧ (∀ k, k ≠ ch → u.channel k = s.channel k) ∧
                  (∀ k, u.clip k = { s.clip k with useCount := (s.clip k).useCount + m.clips.count k -
                    match old with
                    | some e => e.clips.count k
                    | none => 0 }) ∧
                  u.splice = { s.splice with
                    intake := rest, schedules := u.splice.schedules
                    services := s.splice.services.set n { v with accepted := v.accepted + 1 } } ∧
                  u = { s with
                    splice := u.splice, channels := u.channels
                    clips := { s.clips with entries := u.clips.entries } })))

/-- R143, R149, R153: CANCEL_BREAK of the one PENDING entry of a schedule removes it with a CANCELLED record. R143: in
any schedule it is answered STATE without such a break and BAD_FIELD for a number that names no service; an ACTIVE
break has its cancel requested and its labels pending, and any other leaves at once. The output field is the model's
own: log 10; that an entry with the generation of an earlier prime has its channel flushed is read from R129: log 33.
-/
def Obligations.CancelledBreakLeavesARecord : Prop :=
  (∀ (s : State) (tag : Half) (n : Fin 8) (e : ScheduleEntry), s.schedule n = [e] → e.state = .pending →
    ∃ t, exec (.cancelBreak (.cell tag) (BitVec.ofNat 8 n.val) e.breakId) s = .next t ∧ t.schedule n = [] ∧
      (∀ k, k ≠ n → t.schedule k = s.schedule k) ∧
      t.splice.asRun = (⟨s.splice.lastAsRun + 1, n, e.breakId, e.inBlock, e.outBlock, .cancelled, .none,
        e.clipsCompleted, e.cellsFromClips, e.cellsNull, e.firstCell, s.splice.lastNoticed⟩ :: s.splice.asRun).take 64 ∧
      t.splice.lastAsRun = s.splice.lastAsRun + 1 ∧
      t.engine = ((s.engine.counted .intake).latch .breakDone).answered tag 6 .ok [] ∧
      (∀ k, t.clip k = { s.clip k with useCount := (s.clip k).useCount - e.clips.count k }) ∧
      (e.primeGeneration = none → t.channels = s.channels) ∧
      (e.primeGeneration ≠ none →
        t.channel (serviceChannel n) = (s.channel (serviceChannel n)).parkedBy 1 ∧
        ∀ k, k ≠ serviceChannel n → t.channel k = s.channel k) ∧
      t.emitter = s.emitter ∧ t.out = s.out) ∧
  ∀ (s : State) (tag : Half) (id : Half),
    (∀ b : Byte, 8 ≤ b.toNat → exec (.cancelBreak (.cell tag) b id) s =
      .next { s with engine := (s.engine.counted .intake).answered tag 6 .badField [] }) ∧
    ∀ n : Fin 8,
      let found := (s.schedule n).find? fun e => decide (e.breakId = id)
      (found = none → exec (.cancelBreak (.cell tag) (BitVec.ofNat 8 n.val) id) s =
        .next { s with engine := (s.engine.counted .intake).answered tag 6 .state [] }) ∧
      ∀ e, found = some e → ∃ t : State, CancelTaken s.tookCell t n e ∧
        exec (.cancelBreak (.cell tag) (BitVec.ofNat 8 n.val) id) s =
          .next { t with engine := t.engine.answered tag 6 .ok [] }

/-! ### Counters, alarms and lists (09) -/

/-- R160: the three operations of the COUNTER command, and a counter number that names none. -/
def Obligations.CounterCommandActsOnOneCounter : Prop :=
  ∀ (s : State) (tag : Half) (b : Byte),
    let g := s.engine.counted .intake
    (∀ n : Fin 4, b.toNat = n.val →
      let c := s.counters.get n
      exec (.counterStart (.cell tag) b) s =
        .next { s with
          counters := s.counters.set n { c with value := c.latch, running := true }
          engine := g.answered tag 10 .ok [] } ∧
      exec (.counterStop (.cell tag) b) s =
        .next { s with counters := s.counters.set n { c with running := false }, engine := g.answered tag 10 .ok [] } ∧
      exec (.counterLoad (.cell tag) b) s =
        .next { s with counters := s.counters.set n { c with value := c.latch }, engine := g.answered tag 10 .ok [] }) ∧
    (4 ≤ b.toNat →
      exec (.counterStart (.cell tag) b) s = .next { s with engine := g.answered tag 10 .badField [] } ∧
      exec (.counterStop (.cell tag) b) s = .next { s with engine := g.answered tag 10 .badField [] } ∧
      exec (.counterLoad (.cell tag) b) s = .next { s with engine := g.answered tag 10 .badField [] })

/-- R158, R159, R166, R167: an underflow reloads its counter, counts it, stops it in ONE_SHOT, latches its event and
pushes its list, which an IDLE runner starts at once; a running counter above it with source CASCADE is pulsed, and one
that underflows in turn does the same. A cascade is stated for counters without a list and of one further stage. The row
as one pulse of the counter it names alone, whatever its source, is the model's choice: log 1; so is that an IDLE runner
takes a list that waits before the pushed one: log 27. -/
def Obligations.UnderflowReloadsTheCounter : Prop :=
  ∀ (s : State) (n : Fin 4), (s.counters.get n).running = true → (s.counters.get n).value = 1 →
    let c := s.counters.get n
    let under := fun (c : Counter) => { c with
      value := c.latch, underflows := c.underflows + 1, running := c.running && decide (c.mode = .continuous) }
    let feeds := fun (n k : Fin 4) =>
      k.val = n.val + 1 ∧ (s.counters.get k).running = true ∧ (s.counters.get k).source = .cascade
    ((∀ k, ¬feeds n k) →
      ∃ t, exec (.counterUnderflow n) s = .next t ∧ t.counters = s.counters.set n (under c) ∧
        t.engine.latched.getLsbD (18 + n.val) = true ∧
        (c.action = none → t.runner = s.runner ∧ t.engine = s.engine.latch (.counter n)) ∧
        (∀ l, c.action = some l → Pushed s.runner (s.engine.latch (.counter n)) l t.runner t.engine) ∧
        t = { s with counters := t.counters, engine := t.engine, runner := t.runner }) ∧
    ∀ k, feeds n k → c.action = none →
      let d := s.counters.get k
      (d.value ≠ 1 → exec (.counterUnderflow n) s =
        .next { s with
          counters := (s.counters.set n (under c)).set k { d with value := d.value - 1 }
          engine := s.engine.latch (.counter n) }) ∧
      (d.value = 1 → d.action = none → (∀ j, ¬feeds k j) → exec (.counterUnderflow n) s =
        .next { s with
          counters := (s.counters.set n (under c)).set k (under d)
          engine := (s.engine.latch (.counter n)).latch (.counter k) })

/-- R162, R163, R164, R166, R167: ALARM_ARM is refused by the first of its tests that fails. One whose target lies from
10,000,000 ticks behind to now fires the alarm at once, with its list pushed; one of a target ahead arms the alarm at
now advanced by the lead. ALARM_DISARM clears the armed flag and keeps the rest, and is refused for a number that names
no alarm. That an alarm fired at once keeps the target time it had is the model's choice: log 36; that an IDLE runner
takes a list that waits before the pushed one, log 27. -/
def Obligations.AlarmCommandsArmAndDisarm : Prop :=
  ∀ (s : State) (tag : Half),
    let g := s.engine.counted .intake
    (∀ (b list : Byte) (target : Word),
      let refused := fun (st : Status) => exec (.alarmArm (.cell tag) b list target) s =
        .next { s with engine := g.answered tag 11 st [] }
      (4 ≤ b.toNat ∨ stampValid target = false ∨ (16 ≤ list.toNat ∧ list ≠ 0xFF) → refused .badField) ∧
      ∀ (n : Fin 4) (l : Option (Fin 16)), b.toNat = n.val → list = listByte l → stampValid target = true →
        let d := diff target s.now
        let a := s.alarms.get n
        let fired := s.alarms.set n { a with armed := false, target := target, list := l, fires := a.fires + 1 }
        (s.time.state = .unset → refused .timeUnset) ∧
        (s.time.state ≠ .unset → d < -10000000 → refused .timePast) ∧
        (s.time.state ≠ .unset → 1270000000 < d → refused .badField) ∧
        (s.time.state ≠ .unset → -10000000 ≤ d → d ≤ 0 → l = none →
          exec (.alarmArm (.cell tag) b list target) s =
            .next { s with alarms := fired, engine := (g.latch .alarmAny).answered tag 11 .ok [] }) ∧
        (s.time.state ≠ .unset → -10000000 ≤ d → d ≤ 0 → ∀ x, l = some x →
          ∃ r h, Pushed s.runner (g.latch .alarmAny) x r h ∧ exec (.alarmArm (.cell tag) b list target) s =
            .next { s with alarms := fired, runner := r, engine := h.answered tag 11 .ok [] }) ∧
        (s.time.state ≠ .unset → 1 ≤ d → d ≤ 1270000000 →
          exec (.alarmArm (.cell tag) b list target) s =
            .next { s with
              alarms := s.alarms.set n
                { armed := true
                  target := target
                  targetSeconds := s.time.seconds + BitVec.ofNat 32 ((s.time.ticks.val + d.toNat) / 10000000)
                  targetTicks := (s.time.ticks.val + d.toNat) % 10000000
                  list := l
                  fires := a.fires }
              engine := g.answered tag 11 .ok [] })) ∧
    (∀ (n : Fin 4) (b : Byte), b.toNat = n.val → exec (.alarmDisarm (.cell tag) b) s =
      .next { s with
        alarms := s.alarms.set n { s.alarms.get n with armed := false }, engine := g.answered tag 12 .ok [] }) ∧
    ∀ b : Byte, 4 ≤ b.toNat →
      exec (.alarmDisarm (.cell tag) b) s = .next { s with engine := g.answered tag 12 .badField [] }

/-- R163, R166, R167: an alarm fires when the second and tick count stand at its target, or past it by less than half
the count, and pushes its list, which an IDLE runner starts at once. The row at a tick that is no test of R163 is the
model's choice: log 1; so is that an IDLE runner takes a list that waits before the pushed one: log 27. -/
def Obligations.ReachedAlarmFires : Prop :=
  ∀ (s : State) (n : Fin 4), (s.alarms.get n).armed = true →
    ((1 ≤ (s.time.seconds - (s.alarms.get n).targetSeconds).toNat ∧
        (s.time.seconds - (s.alarms.get n).targetSeconds).toNat ≤ 2147483647) ∨
      (s.time.seconds = (s.alarms.get n).targetSeconds ∧ (s.alarms.get n).targetTicks ≤ s.time.ticks.val)) →
    ∃ t, exec (.alarmFires n) s = .next t ∧
      t.alarms = s.alarms.set n { s.alarms.get n with armed := false, fires := (s.alarms.get n).fires + 1 } ∧
      t.engine.latched.getLsbD 22 = true ∧
      ((s.alarms.get n).list = none → t.runner = s.runner ∧ t.engine = s.engine.latch .alarmAny) ∧
      (∀ l, (s.alarms.get n).list = some l → Pushed s.runner (s.engine.latch .alarmAny) l t.runner t.engine) ∧
      t = { s with alarms := t.alarms, engine := t.engine, runner := t.runner }

/-- R166 to R168, R179: RUN_LIST pushes its list, which an IDLE runner starts at once, and is answered OK, or FULL by a
queue without room; a number above 15 is refused. TRIGGER_TAKEN: an IDLE runner takes the oldest trigger, and starts its
list or faults an undefined one. That a trigger waiting when a list ends is taken at TRIGGER_TAKEN, at the next push or
before the engine's next taking is the model's choice: log 27. -/
def Obligations.TriggersArePushedAndTaken : Prop :=
  ∀ s : State,
    (∀ (tag : Half) (l : Fin 16), s.runner.triggers.length ≤ 8 →
      let lost := s.runner.state ≠ .idle ∧ 8 ≤ s.runner.triggers.length
      ∃ r g, Pushed s.runner (s.engine.counted .intake) l r g ∧
        (lost → exec (.runList (.cell tag) (BitVec.ofNat 8 l.val)) s =
          .next { s with runner := r, engine := g.answered tag 13 .full [] }) ∧
        (¬lost → exec (.runList (.cell tag) (BitVec.ofNat 8 l.val)) s =
          .next { s with runner := r, engine := g.answered tag 13 .ok [] })) ∧
    (∀ (tag : Half) (b : Byte), 16 ≤ b.toNat → exec (.runList (.cell tag) b) s =
      .next { s with engine := (s.engine.counted .intake).answered tag 13 .badField [] }) ∧
    ∀ (l : Fin 16) (rest : List (Fin 16)), s.runner.state = .idle → s.runner.triggers = l :: rest →
      let d := s.runner.descriptors.get l
      let k := { s.runner.counts with started := s.runner.counts.started + 1 }
      (d.defined = true → ∀ i : Fin 256, i.val = d.first → exec .triggerTaken s =
        .next { s with runner := { s.runner with
          triggers := rest, counts := k, state := .running l d.first d.length 0 (s.runner.store.get i) } }) ∧
      (d.defined = false → exec .triggerTaken s =
        .next { s with
          runner := { s.runner with
            triggers := rest, counts := { k with faults := k.faults + 1 }, fault := some ⟨l, 0, .state⟩ }
          engine := s.engine.latch .listFault })

/-! ### The Management Engine (10) -/

/-- R180: what a latching changes, event by event. -/
def Obligations.LatchingChangesOneEvent : Prop :=
  ∀ (g : Engine) (e : Event) (k : Nat),
    (g.latch e).latched.getLsbD k = (g.latched.getLsbD k || decide (k = e.position)) ∧
    (g.latch e).fresh.getLsbD k =
      (g.fresh.getLsbD k || (decide (k = e.position) && !g.latched.getLsbD k && g.mask.getLsbD k)) ∧
    g.latch e = { g with latched := (g.latch e).latched, fresh := (g.latch e).fresh }

/-- R183: a report joins the tail of a queue with room, carrying the dropped flag away, or is dropped; the link takes
the head of the queue. The output fields are the model's own: log 10. -/
def Obligations.ReportQueueIsFirstInFirstOut : Prop :=
  (∀ (g : Engine) (r : Report),
    (g.reports.length < 16 → g.queueReport r = { g with
      reports := g.reports ++ [{ r with dropped := g.droppedFlag }], droppedFlag := false
      counts := { g.counts with queued := g.counts.queued + 1 } }) ∧
    (16 ≤ g.reports.length → g.queueReport r = { g with
      droppedFlag := true, counts := { g.counts with dropped := g.counts.dropped + 1 } })) ∧
  ∀ (s : State) (r : Report) (rest : List Report), s.engine.reports = r :: rest →
    exec .reportSent s =
      .next { s with
        engine := { s.engine with reports := rest }
        out := { s.out with report := some (reportCell r), reports := s.out.reports + 1 } }

/-- R167, R172, R173: the oldest cell of the intake is taken when the runner has nothing offered: one not addressed to
this site is discarded and counted, an addressed one is executed with its own tag. With both sources waiting the engine
takes from the one it did not take from last. An IDLE runner has taken what waits for it before the engine takes.
MGMT_CELL_TAKEN as the engine's next taking, and a waiting trigger taken then, are the model's choice: logs 5, 27. -/
def Obligations.EngineTakesItsSourcesInTurn : Prop :=
  (∀ (s : State) (p : Payload) (rest : List Payload) (tag : Half) (c : Command), s.engine.intake = p :: rest →
    s.offered? = some (tag, c) →
    (s.engine.lastSource = .intake → exec .mgmtCellTaken s = .next (s.executeList tag c)) ∧
    (s.engine.lastSource = .runner → exec .mgmtCellTaken s =
      .next (({ s with engine := { s.engine with intake := rest } } : State).takeCell p))) ∧
  (∀ s u : State, exec .triggerTaken s = .next u → exec .mgmtCellTaken s = exec .mgmtCellTaken u) ∧
  ∀ (s : State) (p : Payload) (rest : List Payload), s.engine.intake = p :: rest → s.runner.state = .idle →
    s.runner.triggers = [] →
    let m := readMgmt p
    let s1 : State := { s with engine := { s.engine with intake := rest } }
    ((m.form = 1 ∧ s.engine.siteId ≠ 4095 ∧ m.target = s.engine.siteId.setWidth 16) ∨
        (m.form = 2 ∧ m.target &&& s.engine.groups ≠ 0) ∨ m.form = 3 →
      exec .mgmtCellTaken s = .next (s1.execute .intake m.tag (decodeCommand m.code m.params))) ∧
    (¬((m.form = 1 ∧ s.engine.siteId ≠ 4095 ∧ m.target = s.engine.siteId.setWidth 16) ∨
        (m.form = 2 ∧ m.target &&& s.engine.groups ≠ 0) ∨ m.form = 3) →
      exec .mgmtCellTaken s =
        .next { s with engine := { s.engine with
          intake := rest
          lastSource := .intake
          counts := { s.engine.counts with notAddressed := s.engine.counts.notAddressed + 1 } } })

/-- R168, R173, R174: every row that is a management command executes it, from a cell or from the runner's offer. The
runner has its status back: on OK it offers the next command of its list, or completes the list at its length; any other
status stops the list with the list fault record, a count and LIST_FAULT; a runner that the command has made IDLE does
nothing with it. R167 has a runner that is IDLE again take a waiting trigger at once; that it stays IDLE here with its
triggers waiting is the model's choice: log 27. So is the origin operand: log 5. -/
def Obligations.CommandRowsExecuteTheirCommand : Prop :=
  ∀ (i : Instr) (c : Command) (s : State) (tag : Half),
    (commandOf i = some (.cell tag, c) → exec i s = .next (s.execute .intake tag c)) ∧
    (commandOf i = some (.list, c) → s.nextSource = some .runner → s.offered? = some (tag, c) →
      let u := s.execute .runner tag c
      let st := (runCommand c { s with engine := s.engine.counted .runner }).status
      ∃ t, exec i s = .next t ∧ t = u.returnStatus st ∧
        (u.runner.state = .idle → t = u) ∧
        ∀ l first length index body, u.runner.state = .running l first length index body →
          let k := u.runner.counts
          (st = .ok → index + 1 = length →
            t = { u with runner := { u.runner with
              state := .idle, counts := { k with completed := k.completed + 1 } } }) ∧
          (st = .ok → index + 1 ≠ length → ∀ next : Fin 256, next.val = first + (index + 1) →
            t = { u with runner := { u.runner with
              state := .running l first length (index + 1) (u.runner.store.get next) } }) ∧
          (st ≠ .ok →
            t = { u with
              runner := { u.runner with
                state := .idle, fault := some ⟨l, index, st⟩, counts := { k with faults := k.faults + 1 } }
              engine := u.engine.latch .listFault }))

/-- R174: a command answered with any status but OK returns no data and changes nothing; the one exception is RUN_LIST
at a full queue, which R166 counts as a lost trigger. -/
def Obligations.RefusedCommandChangesNothing : Prop :=
  ∀ (c : Command) (s : State), (runCommand c s).status ≠ .ok →
    (runCommand c s).parts = [[]] ∧
    ((runCommand c s).after = s ∨ ((∃ l, c = .runList l) ∧ (runCommand c s).status = .full))

/-- R174, R175: a command with an unknown code is answered UNKNOWN_COMMAND with its code as received; a WRITE of a space
above 14, or of a space that is not writable, is refused whatever its index and entry. -/
def Obligations.UnknownAndReadOnlyAreRefused : Prop :=
  ∀ (s : State) (tag : Half),
    let g := s.engine.counted .intake
    (∀ code : Byte, exec (.unknownCommand (.cell tag) code) s =
      .next { s with engine := g.answered tag code .unknownCommand [] }) ∧
    ∀ (space : Byte) (index : Half) (entry : List Byte),
      (14 < space.toNat → exec (.write (.cell tag) space index entry) s =
        .next { s with engine := g.answered tag 1 .badSpace [] }) ∧
      (space.toNat ∈ [0, 4, 5, 6, 7, 8, 11, 14] → exec (.write (.cell tag) space index entry) s =
        .next { s with engine := g.answered tag 1 .readOnly [] })

/-- R83, R157: an accepted WRITE of a Label Table record sets its role and its service, and no other field; an accepted
WRITE of a counter sets four fields, stores a latch of 0 as 1, and loads a stopped counter. R175, R83, R157: either is
refused BAD_INDEX past its space's entries, and BAD_FIELD for a field that its owner refuses. -/
def Obligations.LabelAndCounterWritesSetTheirFields : Prop :=
  ∀ (s : State) (tag : Half) (entry : List Byte),
    let g := s.engine.counted .intake
    let refused := fun (c : Instr) (st : Status) => exec c s = .next { s with engine := g.answered tag 1 st [] }
    (∀ index : Half,
      (2048 ≤ index.toNat → refused (.writeLabelTable (.cell tag) index entry) .badIndex) ∧
      (index.toNat < 2048 → entry.length = 8 →
        2 < (byteAt entry 0).toNat ∨ (byteAt entry 0 = 2 ∧ 7 < (byteAt entry 1).toNat) →
        refused (.writeLabelTable (.cell tag) index entry) .badField) ∧
      (4 ≤ index.toNat → refused (.writeCounters (.cell tag) index entry) .badIndex) ∧
      (index.toNat < 4 → entry.length = 12 →
        3 < (byteAt entry 4).toNat ∨ 1 < (byteAt entry 5).toNat ∨ (byteAt entry 4 = 3 ∧ index = 0) ∨
          (16 ≤ (byteAt entry 7).toNat ∧ byteAt entry 7 ≠ 0xFF) →
        refused (.writeCounters (.cell tag) index entry) .badField)) ∧
    (∀ (index : Half) (r : Role), index.toNat < 2048 → entry.length = 8 → byteAt entry 0 = r.code →
      (r = .service → (byteAt entry 1).toNat ≤ 7) →
      exec (.writeLabelTable (.cell tag) index entry) s =
        .next { (s.setLabel (index.extractLsb' 0 11)
            { s.label (index.extractLsb' 0 11) with role := r, service := byteAt entry 1 }) with
          engine := g.answered tag 1 .ok [] }) ∧
    ∀ (n : Fin 4) (src : CounterSource) (mode : CounterMode) (action : Option (Fin 16)), entry.length = 12 →
      byteAt entry 4 = src.code → byteAt entry 5 = mode.code → byteAt entry 7 = listByte action →
      (src = .cascade → n ≠ 0) →
      let c := s.counters.get n
      let latch := if (halfAt entry 0).toNat = 0 then 1 else (halfAt entry 0).toNat
      exec (.writeCounters (.cell tag) (BitVec.ofNat 16 n.val) entry) s =
        .next { s with
          counters := s.counters.set n { c with
            latch := latch, source := src, mode := mode, action := action
            value := if c.running then c.value else latch }
          engine := g.answered tag 1 .ok [] }

/-- R134, R120, R135: a WRITE of a Service Table entry is refused BAD_FIELD for its flag or its arm lead, and then with
the first of R120's three tests that fails; an accepted one sets its two fields and the channel's two. An accepted
WRITE of a Break Map entry stores it, and one that names another valid entry's break is refused. R175, R135: either is
refused BAD_INDEX past its space's entries, and a Break Map entry BAD_FIELD by the first test of R135. -/
def Obligations.ServiceAndBreakWritesStore : Prop :=
  (∀ (s : State) (tag index : Half) (entry : List Byte),
    let refused := fun (c : Instr) (st : Status) =>
      exec c s = .next { s with engine := (s.engine.counted .intake).answered tag 1 st [] }
    let count := (byteAt entry 3).toNat
    (8 ≤ index.toNat → refused (.writeServiceTable (.cell tag) index entry) .badIndex) ∧
    (64 ≤ index.toNat → refused (.writeBreakMap (.cell tag) index entry) .badIndex) ∧
    (index.toNat < 64 → entry.length = 16 →
      (byteAt entry 0).extractLsb' 3 4 ≠ 0 ∨ count < 1 ∨ 4 < count ∨
        (∃ k, k < count ∧ 127 < (byteAt entry (4 + k)).toNat) ∨
        (∃ k, k < 4 ∧ 2046 < (halfAt entry (8 + 2 * k)).toNat ∧ halfAt entry (8 + 2 * k) ≠ 0xFFFF) →
      refused (.writeBreakMap (.cell tag) index entry) .badField)) ∧
  (∀ (s : State) (tag : Half) (n : Fin 8) (entry : List Byte), entry.length = 24 →
    let g := s.engine.counted .intake
    let lead := (byteAt entry 1).toNat
    let depth := (halfAt entry 2).toNat
    let refill := (halfAt entry 4).toNat
    (2 ≤ (byteAt entry 0).toNat ∨ lead < 1 ∨ 64 < lead →
      exec (.writeServiceTable (.cell tag) (BitVec.ofNat 16 n.val) entry) s =
        .next { s with engine := g.answered tag 1 .badField [] }) ∧
    ∀ (on : Bool) (answer : Status), byteAt entry 0 = yesNo on → 1 ≤ lead → lead ≤ 64 →
      DepthAnswer s (serviceChannel n) depth refill answer →
      (answer ≠ .ok → exec (.writeServiceTable (.cell tag) (BitVec.ofNat 16 n.val) entry) s =
        .next { s with engine := g.answered tag 1 answer [] }) ∧
      (answer = .ok → exec (.writeServiceTable (.cell tag) (BitVec.ofNat 16 n.val) entry) s =
        .next { ((s.setService n { s.service n with enable := on, armLead := lead }).setChannel (serviceChannel n)
            { s.channel (serviceChannel n) with depth := depth, refill := refill }) with
          engine := g.answered tag 1 .ok [] })) ∧
  ∀ (s : State) (tag : Half) (n : Fin 64) (entry : List Byte) (e : BreakEntry), entry.length = 16 →
    readBreak? entry = some e →
    let g := s.engine.counted .intake
    let taken := ∃ k, k ≠ n ∧ (s.splice.breakMap.get k).valid = true ∧
      (s.splice.breakMap.get k).service = e.service ∧ (s.splice.breakMap.get k).breakId = e.breakId
    (e.valid = true → taken → exec (.writeBreakMap (.cell tag) (BitVec.ofNat 16 n.val) entry) s =
      .next { s with engine := g.answered tag 1 .overlap [] }) ∧
    (e.valid = false ∨ ¬taken → exec (.writeBreakMap (.cell tag) (BitVec.ofNat 16 n.val) entry) s =
      .next { s with
        splice := { s.splice with breakMap := s.splice.breakMap.set n e }, engine := g.answered tag 1 .ok [] })

/-- R176, R92, R110, R120: a Site Settings entry is refused BAD_FIELD where an owner answers it, as for a field out of its
range (R13, R33, R49, R65, R92), else BUSY where one does, as for the fallback clip or map changed in FALLBACK, else FULL;
a refused one changes nothing. One that every owner accepts sets every setting at one moment. R110: a moved fallback
designation moves the two use counts. R90: the enable written off in FALLBACK ends it, channel 8 flushed and the labels
of its map pending. R175: any index but 0 is refused BAD_INDEX. R87 does not say what the fallback timer shows after a
shorter delay is written; that it keeps its value at the WRITE is the model's choice: log 34. -/
def Obligations.SettingsWriteSetsEveryField : Prop :=
  (∀ (s : State) (tag index : Half) (entry : List Byte), index ≠ 0 →
    exec (.writeSiteSettings (.cell tag) index entry) s =
      .next { s with engine := (s.engine.counted .intake).answered tag 1 .badIndex [] }) ∧
  ∀ (s : State) (tag : Half) (entry : List Byte), entry.length = 40 →
    let g := s.engine.counted .intake
    let refused := fun (st : Status) => exec (.writeSiteSettings (.cell tag) 0 entry) s =
      .next { s with engine := g.answered tag 1 st [] }
    let label := fun (k : Nat) => halfAt entry (26 + 2 * k)
    let unread := 2 ≤ (byteAt entry 4).toNat ∨ 2 ≤ (byteAt entry 5).toNat ∨
      (127 < (byteAt entry 24).toNat ∧ byteAt entry 24 ≠ 0xFF) ∨
      ∃ k, k < 4 ∧ 2046 < (label k).toNat ∧ label k ≠ 0xFFFF
    (unread → refused .badField) ∧ (unread ↔ readSettings? entry = none) ∧
    ∀ (x : Settings) (depth : Status), readSettings? entry = some x → DepthAnswer s 8 x.depth x.refill depth →
      let inRange := 10 ≤ x.silenceLimit ∧ x.silenceLimit ≤ 10000 ∧
        x.minLead ≤ 10000000 ∧ 1000000 ≤ x.maxAhead ∧ x.maxAhead ≤ 1200000000 ∧ x.minLead ≤ x.maxAhead ∧
        1 ≤ x.window ∧ x.window ≤ 5000 ∧ 1 ≤ x.holdoverLimit ∧ x.holdoverLimit ≤ 65535 ∧
        65536 ≤ x.period ∧ x.period ≤ 4294901760 ∧ 100 ≤ x.fallbackDelay ∧ x.fallbackDelay ≤ 60000
      let absent := ∃ n, x.fallbackClip = some n ∧ (s.clip n).state = .empty
      let onAir := s.emitter.state = .fallback ∧
        (x.fallbackClip ≠ s.emitter.fallbackClip ∨ x.fallbackMap ≠ s.emitter.fallbackMap)
      x = { x with
        networkId := halfAt entry 0, silenceLimit := (halfAt entry 2).toNat, minLead := (wordAt entry 6).toNat
        maxAhead := (wordAt entry 10).toNat, window := (halfAt entry 14).toNat
        holdoverLimit := (halfAt entry 16).toNat, period := (wordAt entry 18).toNat
        fallbackDelay := (halfAt entry 22).toNat, depth := (halfAt entry 34).toNat
        refill := (halfAt entry 36).toNat, groups := halfAt entry 38 } ∧
      (x.preferred = .A ↔ byteAt entry 4 = 0) ∧ (x.fallbackEnable = true ↔ byteAt entry 5 = 1) ∧
      (∀ k, x.fallbackClip = some k ↔ (byteAt entry 24).toNat = k.val) ∧
      (∀ (k : Fin 4) l, x.fallbackMap.get k = some l ↔ (label k.val).toNat = l.toNat) ∧
      (¬inRange ∨ absent ∨ depth = .badField → refused .badField) ∧
      (inRange → ¬absent → depth ≠ .badField → onAir ∨ depth = .busy → refused .busy) ∧
      (inRange → ¬absent → ¬onAir → depth = .full → refused .full) ∧
      (inRange → ¬absent → ¬onAir → depth = .ok →
        let ends := s.emitter.state = .fallback ∧ x.fallbackEnable = false
        ∃ t, exec (.writeSiteSettings (.cell tag) 0 entry) s = .next t ∧
          t.feeds = ⟨x.networkId, x.silenceLimit, x.preferred⟩ ∧
          (∀ f, t.port f = { s.port f with silenceLatch := x.silenceLimit }) ∧
          t.slots = { s.slots with minLead := x.minLead, maxAhead := x.maxAhead } ∧
          t.time = { s.time with window := x.window, holdoverLimit := x.holdoverLimit } ∧
          t.emitter = { s.emitter with
            state := if ends then .idle else s.emitter.state
            timer := if ends then 0 else s.emitter.timer
            labels := t.emitter.labels, pendingPeriod := some x.period, fallbackEnable := x.fallbackEnable
            fallbackDelay := x.fallbackDelay, fallbackClip := x.fallbackClip, fallbackMap := x.fallbackMap } ∧
          (∀ l, t.label l = if ends ∧ some l ∈ s.emitter.fallbackMap.items then { s.label l with pending := true }
            else s.label l) ∧
          t.channel 8 = { (if ends then (s.channel 8).parkedBy 1 else s.channel 8) with
            depth := x.depth, refill := x.refill } ∧
          (∀ k, k ≠ 8 → t.channel k = s.channel k) ∧
          (x.fallbackClip = s.emitter.fallbackClip → t.clips = s.clips) ∧
          (x.fallbackClip ≠ s.emitter.fallbackClip → ∀ k, t.clip k = { s.clip k with
            useCount := (s.clip k).useCount + (if x.fallbackClip = some k then 1 else 0) -
              (if s.emitter.fallbackClip = some k then 1 else 0) }) ∧
          t.engine = ({ g with groups := x.groups } : Engine).answered tag 1 .ok [] ∧
          t = { s with
            feeds := t.feeds, portA := t.portA, portB := t.portB, slots := t.slots, time := t.time, emitter := t.emitter
            channels := t.channels, clips := { s.clips with entries := t.clips.entries }, engine := t.engine })

/-- R165: a WRITE of a List Descriptor defines a list that fits the store, refuses one that does not, and undefines one
keeping its figures; a WRITE of a List Store slot stores any body. R175: either is refused BAD_INDEX past its space's
entries. R187: a defined flag other than 0 and 1 is refused BAD_FIELD. -/
def Obligations.ListWritesStoreAndDefine : Prop :=
  ∀ (s : State) (tag : Half) (entry : List Byte),
    let g := s.engine.counted .intake
    let refused := fun (c : Instr) (st : Status) => exec c s = .next { s with engine := g.answered tag 1 st [] }
    (∀ index : Half,
      (16 ≤ index.toNat → refused (.writeListDescriptors (.cell tag) index entry) .badIndex) ∧
      (index.toNat < 16 → entry.length = 4 → 2 ≤ (byteAt entry 0).toNat →
        refused (.writeListDescriptors (.cell tag) index entry) .badField) ∧
      (256 ≤ index.toNat → refused (.writeListStore (.cell tag) index entry) .badIndex)) ∧
    (∀ n : Fin 16, entry.length = 4 →
      let first := (byteAt entry 1).toNat
      let length := (byteAt entry 2).toNat
      (byteAt entry 0 = 1 → 1 ≤ length → length ≤ 64 → first + length ≤ 256 →
        exec (.writeListDescriptors (.cell tag) (BitVec.ofNat 16 n.val) entry) s =
          .next { s with
            runner := { s.runner with descriptors := s.runner.descriptors.set n ⟨true, first, length⟩ }
            engine := g.answered tag 1 .ok [] }) ∧
      (byteAt entry 0 = 1 → (length = 0 ∨ 64 < length ∨ 256 < first + length) →
        exec (.writeListDescriptors (.cell tag) (BitVec.ofNat 16 n.val) entry) s =
          .next { s with engine := g.answered tag 1 .badField [] }) ∧
      (byteAt entry 0 = 0 → exec (.writeListDescriptors (.cell tag) (BitVec.ofNat 16 n.val) entry) s =
        .next { s with
          runner := { s.runner with
            descriptors := s.runner.descriptors.set n { s.runner.descriptors.get n with defined := false } }
          engine := g.answered tag 1 .ok [] })) ∧
    (∀ n : Fin 256, entry.length = 68 → exec (.writeListStore (.cell tag) (BitVec.ofNat 16 n.val) entry) s =
      .next { s with
        runner := { s.runner with
          store := s.runner.store.set n ⟨halfAt entry 0, byteAt entry 2, Table.ofList 64 0 (entry.drop 4)⟩ }
        engine := g.answered tag 1 .ok [] })

/-- R177, R178, R189: a READ that passes its tests returns the entries named after its header, and changes nothing;
that of the Site Status returns its entry in three parts, each a report of its own; one that fails is refused. DESCRIBE
returns the four figures of a space, or is refused BAD_SPACE. R175: after an accepted WRITE an entry shows each byte as
it was written. -/
def Obligations.ReadAndDescribeReturnData : Prop :=
  (∀ (s : State) (tag : Half) (space : Byte),
    let g := s.engine.counted .intake
    (∀ (count : Byte) (first : Half), space.toNat < 14 → 1 ≤ count.toNat → count.toNat ≤ spacePerReport space.toNat →
      first.toNat + count.toNat ≤ spaceEntries space.toNat →
      let data := [space, count] ++ be16 first ++
        (List.range count.toNat).flatMap fun k => s.tookCell.entryBytes space.toNat (first.toNat + k)
      exec (.read (.cell tag) space count first) s = .next { s with engine := g.answered tag 2 .ok data }) ∧
    (let part := fun (k : Nat) (shown : List Byte) =>
      ({ siteId := g.siteId, kind := .reply, dropped := false, source := .intake, tag := tag, code := 2, status := .ok
         part := k, parts := 3, data := [14, 1, 0, 0] ++ shown } : Report)
     exec (.read (.cell tag) 14 1 0) s =
      .next { s with
        engine := ((g.queueReport (part 1 s.tookCell.statusPart1)).queueReport
          (part 2 s.tookCell.statusPart2)).queueReport (part 3 s.tookCell.statusPart3) }) ∧
    (∀ (count : Byte) (first : Half),
      (14 < space.toNat → exec (.read (.cell tag) space count first) s =
        .next { s with engine := g.answered tag 2 .badSpace [] }) ∧
      (space.toNat ≤ 14 → count.toNat = 0 ∨ spacePerReport space.toNat < count.toNat →
        exec (.read (.cell tag) space count first) s = .next { s with engine := g.answered tag 2 .badField [] }) ∧
      (space.toNat ≤ 14 → 1 ≤ count.toNat → count.toNat ≤ spacePerReport space.toNat →
        spaceEntries space.toNat < first.toNat + count.toNat →
        exec (.read (.cell tag) space count first) s = .next { s with engine := g.answered tag 2 .badIndex [] })) ∧
    (14 < space.toNat → exec (.describe (.cell tag) space) s =
      .next { s with engine := g.answered tag 3 .badSpace [] }) ∧
    (space.toNat ≤ 14 →
      let data := nat16 (spaceEntries space.toNat) ++ nat16 (entrySize space) ++ [yesNo (spaceWritable space.toNat)] ++
        nat8 (spacePerReport space.toNat)
      exec (.describe (.cell tag) space) s = .next { s with engine := g.answered tag 3 .ok data })) ∧
  ∀ (s : State) (space : Byte) (index : Half) (entry : List Byte), entry.length = entrySize space →
    (runCommand (.write space index entry) s).status = .ok →
    ∀ k ∈ writtenBytes space entry,
      byteAt ((runCommand (.write space index entry) s).after.entryBytes space.toNat index.toNat) k = byteAt entry k

/-- R190: every entry shown has the size its space's layout gives, and a READ never overfills a report (R189). -/
def Obligations.EntriesHaveTheirLayoutSize : Prop :=
  ∀ (s : State) (n i : Nat), n ≤ 14 → i < spaceEntries n →
    (s.entryBytes n i).length = entrySize (BitVec.ofNat 8 n) ∧
    (n < 14 → 4 + spacePerReport n * entrySize (BitVec.ofNat 8 n) ≤ 228) ∧
    4 + s.statusPart1.length ≤ 228 ∧ 4 + s.statusPart2.length ≤ 228 ∧ 4 + s.statusPart3.length ≤ 228

/-- R181: EVENT_MASK SET and CLEAR, and EVENT_READ. -/
def Obligations.EventCommandsActOnTheSets : Prop :=
  ∀ (s : State) (tag : Half) (x : Word),
    let g := s.engine.counted .intake
    let e : BitVec 24 := x.setWidth 24
    let masked : Engine := { g with mask := g.mask ||| e }
    let cleared : Engine := { g with mask := g.mask &&& ~~~e, fresh := g.fresh &&& ~~~e }
    let emptied : Engine := { g with latched := 0, fresh := g.fresh &&& ~~~g.latched }
    exec (.eventMaskSet (.cell tag) x) s =
      .next { s with engine := masked.answered tag 7 .ok (be32 (masked.mask.setWidth 32)) } ∧
    exec (.eventMaskClear (.cell tag) x) s =
      .next { s with engine := cleared.answered tag 7 .ok (be32 (cleared.mask.setWidth 32)) } ∧
    exec (.eventRead (.cell tag)) s =
      .next { s with engine := emptied.answered tag 8 .ok (be32 (g.latched.setWidth 32)) }

/-- R70, R71, R74, R179: MUTE ON gives the OPERATOR reason, and mutes when no reason was held: a block on air is cut,
its slot freed and its cells to come counted unsent, and fallback ends. MUTE OFF withdraws the reason, and changes
nothing where it is not held: with TIME still held the Emitter stays MUTED, and with none left it leaves MUTED for
IDLE. There the head is tested, and one whose stamp is reached starts as at BLOCK_START whose read does not fault. That the
read of its first cell never faults there, where R82 gives such a fault an effect, is the model's choice: log 28. The
output field is the model's own: log 10; the unsent cells are judged by the cell number: log 12. -/
def Obligations.MuteCommandsGiveAndWithdraw : Prop :=
  (∀ (s : State) (tag : Half),
    let g := s.engine.counted .intake
    (s.emitter.reasons.operator = false →
      exec (.muteOff (.cell tag)) s = .next { s with engine := g.answered tag 14 .ok [] }) ∧
    (s.emitter.reasons = ⟨true, true⟩ → exec (.muteOff (.cell tag)) s =
      .next { s with
        emitter := { s.emitter with reasons := ⟨true, false⟩ }, engine := g.answered tag 14 .ok [] }) ∧
    (s.emitter.reasons = ⟨false, true⟩ → s.emitter.state = .muted →
      let unmuted : State := { s with
        emitter := { s.emitter with reasons := ⟨false, false⟩, state := .idle, timer := 0 }, engine := g.latch .mute }
      (s.headReached = false →
        exec (.muteOff (.cell tag)) s = .next { unmuted with engine := unmuted.engine.answered tag 14 .ok [] }) ∧
      (s.headReached = true → ∃ t, exec (.blockStart false) unmuted = .next t ∧
        exec (.muteOff (.cell tag)) s = .next { t with engine := t.engine.answered tag 14 .ok [] }))) ∧
  ∀ (s : State) (tag : Half),
    let s1 : State := { s with engine := s.engine.counted .intake }
    ∃ t, ReasonsTaken s1 t { s.emitter.reasons with operator := true } ∧
      exec (.muteOn (.cell tag)) s = .next { t with engine := t.engine.answered tag 14 .ok [] }

/-- R51, R68, R94, R95, R117, R133, R156, R161, R164, R169, R184: what a TRAFFIC reset empties and records, and that
the rest is kept, the settings among it. The straps and the output field are the model's: logs 6, 10; the unsent cells
of the block on air are judged by its cell number: log 12. -/
def Obligations.TrafficResetEmptiesTheTraffic : Prop :=
  ∀ (s : State) (tag : Half),
    let leaving := s.leaving
    let g := s.engine.counted .intake
    let done := if leaving = [] then g else g.latch .breakDone
    ∃ t, exec (.resetSiteTraffic (.cell tag)) s = .next t ∧
      (∀ f, t.port f = { s.port f with state := .absent, current := none, silence := (s.port f).silenceLatch }) ∧
      (∀ i, t.slot i = Slot.free) ∧ t.slots = { s.slots with slots := t.slots.slots, queue := [] } ∧
      t.emitter = { s.emitter with
        state := if s.emitter.reasons.held = true then .muted else .idle
        current := none
        timer := 0
        labels := t.emitter.labels
        counts := { s.emitter.counts with unsent := s.emitter.counts.unsent + match s.emitter.current with
          | some b => BitVec.ofNat 32 (b.count - (s.emitter.phase.cell + 1))
          | none => 0 } } ∧
      (∀ l, t.label l = { s.label l with pending := true }) ∧
      (∀ n, t.channel n = { s.channel n with
        state := .parked, queue := [], generation := (s.channel n).generation + 1, clips := [], labelMap := none
        listIndex := 0, cellIndex := 0, passMarkDue := false, inFlight := false, inFlightCount := 0
        exhausted := false, halted := false }) ∧
      (∀ n, t.schedule n = []) ∧
      t.splice = { s.splice with
        schedules := t.splice.schedules
        lastAsRun := s.splice.lastAsRun + BitVec.ofNat 16 leaving.length
        asRun := s.splice.recorded s.splice.lastNoticed leaving } ∧
      t.clips = { s.clips with entries := t.clips.entries } ∧
      (∀ k, t.clip k = { s.clip k with
        useCount := (s.clip k).useCount - ((leaving.map fun x => x.2.1.clips.count k).sum) }) ∧
      t.runner = { s.runner with state := .idle, triggers := [] } ∧
      t.engine = (({ done with siteId := s.pins.straps } : Engine).latch .feedBack).answered tag 15 .ok [] ∧
      t = { s with
        portA := t.portA, portB := t.portB, slots := t.slots, emitter := t.emitter, clips := t.clips
        channels := t.channels, splice := t.splice, runner := t.runner, engine := t.engine }

/-- R185: RESET_SITE FULL and RESET_LINE leave the same state, but for the reply that RESET_SITE FULL queues first.
What no rule resets stays, by the model's choice: logs 6, 7, 8, 10, 16. -/
def Obligations.FullResetLeavesTheResetState : Prop :=
  ∀ (s : State) (tag : Half) (straps : BitVec 12),
    let fresh := fun (id : BitVec 12) => ({ State.reset with
      pending := s.pending
      pins := { s.pins with straps := id }
      delay := s.delay
      clips := { ClipStore.reset with
        pages := s.clips.pages, intake := s.clips.intake, reads := s.clips.reads.map fun r => { r with stale := true } }
      splice := { Splice.reset with intake := s.splice.intake }
      engine := { Engine.reset 0 with siteId := id }
      out := s.out
      faultCount := s.faultCount } : State)
    exec (.resetLine straps) s = .next (fresh straps) ∧
    exec (.resetSiteFull (.cell tag)) s =
      .next { fresh s.pins.straps with engine := (fresh s.pins.straps).engine.answered tag 15 .ok [] }
end

