-- ==== Sys2Proof/Laws/State.lean ====
section
/-! SUPPORT. Laws/State.lean: one lemma for each field of State under each named update, each true by unfolding. -/

namespace Sys2Proof.Machine

variable (s : State)

/-! ### setSlot -/

@[simp] theorem State.setSlot_pending (i : Fin 256) (x : Slot) : (s.setSlot i x).pending = s.pending := rfl
@[simp] theorem State.setSlot_pins (i : Fin 256) (x : Slot) : (s.setSlot i x).pins = s.pins := rfl
@[simp] theorem State.setSlot_time (i : Fin 256) (x : Slot) : (s.setSlot i x).time = s.time := rfl
@[simp] theorem State.setSlot_portA (i : Fin 256) (x : Slot) : (s.setSlot i x).portA = s.portA := rfl
@[simp] theorem State.setSlot_portB (i : Fin 256) (x : Slot) : (s.setSlot i x).portB = s.portB := rfl
@[simp] theorem State.setSlot_feeds (i : Fin 256) (x : Slot) : (s.setSlot i x).feeds = s.feeds := rfl
@[simp] theorem State.setSlot_slots (i : Fin 256) (x : Slot) :
    (s.setSlot i x).slots = { s.slots with slots := s.slots.slots.set i x } := rfl
@[simp] theorem State.setSlot_delay (i : Fin 256) (x : Slot) : (s.setSlot i x).delay = s.delay := rfl
@[simp] theorem State.setSlot_emitter (i : Fin 256) (x : Slot) : (s.setSlot i x).emitter = s.emitter := rfl
@[simp] theorem State.setSlot_clips (i : Fin 256) (x : Slot) : (s.setSlot i x).clips = s.clips := rfl
@[simp] theorem State.setSlot_channels (i : Fin 256) (x : Slot) : (s.setSlot i x).channels = s.channels := rfl
@[simp] theorem State.setSlot_splice (i : Fin 256) (x : Slot) : (s.setSlot i x).splice = s.splice := rfl
@[simp] theorem State.setSlot_counters (i : Fin 256) (x : Slot) : (s.setSlot i x).counters = s.counters := rfl
@[simp] theorem State.setSlot_alarms (i : Fin 256) (x : Slot) : (s.setSlot i x).alarms = s.alarms := rfl
@[simp] theorem State.setSlot_runner (i : Fin 256) (x : Slot) : (s.setSlot i x).runner = s.runner := rfl
@[simp] theorem State.setSlot_engine (i : Fin 256) (x : Slot) : (s.setSlot i x).engine = s.engine := rfl
@[simp] theorem State.setSlot_out (i : Fin 256) (x : Slot) : (s.setSlot i x).out = s.out := rfl
@[simp] theorem State.setSlot_faultCount (i : Fin 256) (x : Slot) : (s.setSlot i x).faultCount = s.faultCount := rfl
@[simp] theorem State.setSlot_openingTaken (i : Fin 256) (x : Slot) :
    (s.setSlot i x).openingTaken = s.openingTaken := rfl
@[simp] theorem State.setSlot_eventDue (i : Fin 256) (x : Slot) :
    (s.setSlot i x).eventDue = s.eventDue := rfl

/-! ### setChannel -/

@[simp] theorem State.setChannel_pending (n : Fin 9) (x : Channel) : (s.setChannel n x).pending = s.pending := rfl
@[simp] theorem State.setChannel_pins (n : Fin 9) (x : Channel) : (s.setChannel n x).pins = s.pins := rfl
@[simp] theorem State.setChannel_time (n : Fin 9) (x : Channel) : (s.setChannel n x).time = s.time := rfl
@[simp] theorem State.setChannel_portA (n : Fin 9) (x : Channel) : (s.setChannel n x).portA = s.portA := rfl
@[simp] theorem State.setChannel_portB (n : Fin 9) (x : Channel) : (s.setChannel n x).portB = s.portB := rfl
@[simp] theorem State.setChannel_feeds (n : Fin 9) (x : Channel) : (s.setChannel n x).feeds = s.feeds := rfl
@[simp] theorem State.setChannel_slots (n : Fin 9) (x : Channel) : (s.setChannel n x).slots = s.slots := rfl
@[simp] theorem State.setChannel_delay (n : Fin 9) (x : Channel) : (s.setChannel n x).delay = s.delay := rfl
@[simp] theorem State.setChannel_emitter (n : Fin 9) (x : Channel) : (s.setChannel n x).emitter = s.emitter := rfl
@[simp] theorem State.setChannel_clips (n : Fin 9) (x : Channel) : (s.setChannel n x).clips = s.clips := rfl
@[simp] theorem State.setChannel_channels (n : Fin 9) (x : Channel) :
    (s.setChannel n x).channels = s.channels.set n x := rfl
@[simp] theorem State.setChannel_splice (n : Fin 9) (x : Channel) : (s.setChannel n x).splice = s.splice := rfl
@[simp] theorem State.setChannel_counters (n : Fin 9) (x : Channel) : (s.setChannel n x).counters = s.counters := rfl
@[simp] theorem State.setChannel_alarms (n : Fin 9) (x : Channel) : (s.setChannel n x).alarms = s.alarms := rfl
@[simp] theorem State.setChannel_runner (n : Fin 9) (x : Channel) : (s.setChannel n x).runner = s.runner := rfl
@[simp] theorem State.setChannel_engine (n : Fin 9) (x : Channel) : (s.setChannel n x).engine = s.engine := rfl
@[simp] theorem State.setChannel_out (n : Fin 9) (x : Channel) : (s.setChannel n x).out = s.out := rfl
@[simp] theorem State.setChannel_faultCount (n : Fin 9) (x : Channel) :
    (s.setChannel n x).faultCount = s.faultCount := rfl
@[simp] theorem State.setChannel_openingTaken (n : Fin 9) (x : Channel) :
    (s.setChannel n x).openingTaken = s.openingTaken := rfl
@[simp] theorem State.setChannel_eventDue (n : Fin 9) (x : Channel) :
    (s.setChannel n x).eventDue = s.eventDue := rfl

/-! ### setClip -/

@[simp] theorem State.setClip_pending (n : Fin 128) (x : ClipEntry) : (s.setClip n x).pending = s.pending := rfl
@[simp] theorem State.setClip_pins (n : Fin 128) (x : ClipEntry) : (s.setClip n x).pins = s.pins := rfl
@[simp] theorem State.setClip_time (n : Fin 128) (x : ClipEntry) : (s.setClip n x).time = s.time := rfl
@[simp] theorem State.setClip_portA (n : Fin 128) (x : ClipEntry) : (s.setClip n x).portA = s.portA := rfl
@[simp] theorem State.setClip_portB (n : Fin 128) (x : ClipEntry) : (s.setClip n x).portB = s.portB := rfl
@[simp] theorem State.setClip_feeds (n : Fin 128) (x : ClipEntry) : (s.setClip n x).feeds = s.feeds := rfl
@[simp] theorem State.setClip_slots (n : Fin 128) (x : ClipEntry) : (s.setClip n x).slots = s.slots := rfl
@[simp] theorem State.setClip_delay (n : Fin 128) (x : ClipEntry) : (s.setClip n x).delay = s.delay := rfl
@[simp] theorem State.setClip_emitter (n : Fin 128) (x : ClipEntry) : (s.setClip n x).emitter = s.emitter := rfl
@[simp] theorem State.setClip_clips (n : Fin 128) (x : ClipEntry) :
    (s.setClip n x).clips = { s.clips with entries := s.clips.entries.set n x } := rfl
@[simp] theorem State.setClip_channels (n : Fin 128) (x : ClipEntry) : (s.setClip n x).channels = s.channels := rfl
@[simp] theorem State.setClip_splice (n : Fin 128) (x : ClipEntry) : (s.setClip n x).splice = s.splice := rfl
@[simp] theorem State.setClip_counters (n : Fin 128) (x : ClipEntry) : (s.setClip n x).counters = s.counters := rfl
@[simp] theorem State.setClip_alarms (n : Fin 128) (x : ClipEntry) : (s.setClip n x).alarms = s.alarms := rfl
@[simp] theorem State.setClip_runner (n : Fin 128) (x : ClipEntry) : (s.setClip n x).runner = s.runner := rfl
@[simp] theorem State.setClip_engine (n : Fin 128) (x : ClipEntry) : (s.setClip n x).engine = s.engine := rfl
@[simp] theorem State.setClip_out (n : Fin 128) (x : ClipEntry) : (s.setClip n x).out = s.out := rfl
@[simp] theorem State.setClip_faultCount (n : Fin 128) (x : ClipEntry) :
    (s.setClip n x).faultCount = s.faultCount := rfl
@[simp] theorem State.setClip_openingTaken (n : Fin 128) (x : ClipEntry) :
    (s.setClip n x).openingTaken = s.openingTaken := rfl
@[simp] theorem State.setClip_eventDue (n : Fin 128) (x : ClipEntry) :
    (s.setClip n x).eventDue = s.eventDue := rfl

/-! ### setLabel -/

@[simp] theorem State.setLabel_pending (l : BitVec 11) (x : LabelRecord) : (s.setLabel l x).pending = s.pending := rfl
@[simp] theorem State.setLabel_pins (l : BitVec 11) (x : LabelRecord) : (s.setLabel l x).pins = s.pins := rfl
@[simp] theorem State.setLabel_time (l : BitVec 11) (x : LabelRecord) : (s.setLabel l x).time = s.time := rfl
@[simp] theorem State.setLabel_portA (l : BitVec 11) (x : LabelRecord) : (s.setLabel l x).portA = s.portA := rfl
@[simp] theorem State.setLabel_portB (l : BitVec 11) (x : LabelRecord) : (s.setLabel l x).portB = s.portB := rfl
@[simp] theorem State.setLabel_feeds (l : BitVec 11) (x : LabelRecord) : (s.setLabel l x).feeds = s.feeds := rfl
@[simp] theorem State.setLabel_slots (l : BitVec 11) (x : LabelRecord) : (s.setLabel l x).slots = s.slots := rfl
@[simp] theorem State.setLabel_delay (l : BitVec 11) (x : LabelRecord) : (s.setLabel l x).delay = s.delay := rfl
@[simp] theorem State.setLabel_emitter (l : BitVec 11) (x : LabelRecord) :
    (s.setLabel l x).emitter = { s.emitter with labels := s.emitter.labels.set ⟨l.toNat, l.isLt⟩ x } := rfl
@[simp] theorem State.setLabel_clips (l : BitVec 11) (x : LabelRecord) : (s.setLabel l x).clips = s.clips := rfl
@[simp] theorem State.setLabel_channels (l : BitVec 11) (x : LabelRecord) :
    (s.setLabel l x).channels = s.channels := rfl
@[simp] theorem State.setLabel_splice (l : BitVec 11) (x : LabelRecord) : (s.setLabel l x).splice = s.splice := rfl
@[simp] theorem State.setLabel_counters (l : BitVec 11) (x : LabelRecord) :
    (s.setLabel l x).counters = s.counters := rfl
@[simp] theorem State.setLabel_alarms (l : BitVec 11) (x : LabelRecord) : (s.setLabel l x).alarms = s.alarms := rfl
@[simp] theorem State.setLabel_runner (l : BitVec 11) (x : LabelRecord) : (s.setLabel l x).runner = s.runner := rfl
@[simp] theorem State.setLabel_engine (l : BitVec 11) (x : LabelRecord) : (s.setLabel l x).engine = s.engine := rfl
@[simp] theorem State.setLabel_out (l : BitVec 11) (x : LabelRecord) : (s.setLabel l x).out = s.out := rfl
@[simp] theorem State.setLabel_faultCount (l : BitVec 11) (x : LabelRecord) :
    (s.setLabel l x).faultCount = s.faultCount := rfl
@[simp] theorem State.setLabel_openingTaken (l : BitVec 11) (x : LabelRecord) :
    (s.setLabel l x).openingTaken = s.openingTaken := rfl
@[simp] theorem State.setLabel_eventDue (l : BitVec 11) (x : LabelRecord) :
    (s.setLabel l x).eventDue = s.eventDue := rfl

/-! ### setSchedule -/

@[simp] theorem State.setSchedule_pending (n : Fin 8) (x : List ScheduleEntry) :
    (s.setSchedule n x).pending = s.pending := rfl
@[simp] theorem State.setSchedule_pins (n : Fin 8) (x : List ScheduleEntry) : (s.setSchedule n x).pins = s.pins := rfl
@[simp] theorem State.setSchedule_time (n : Fin 8) (x : List ScheduleEntry) : (s.setSchedule n x).time = s.time := rfl
@[simp] theorem State.setSchedule_portA (n : Fin 8) (x : List ScheduleEntry) :
    (s.setSchedule n x).portA = s.portA := rfl
@[simp] theorem State.setSchedule_portB (n : Fin 8) (x : List ScheduleEntry) :
    (s.setSchedule n x).portB = s.portB := rfl
@[simp] theorem State.setSchedule_feeds (n : Fin 8) (x : List ScheduleEntry) :
    (s.setSchedule n x).feeds = s.feeds := rfl
@[simp] theorem State.setSchedule_slots (n : Fin 8) (x : List ScheduleEntry) :
    (s.setSchedule n x).slots = s.slots := rfl
@[simp] theorem State.setSchedule_delay (n : Fin 8) (x : List ScheduleEntry) :
    (s.setSchedule n x).delay = s.delay := rfl
@[simp] theorem State.setSchedule_emitter (n : Fin 8) (x : List ScheduleEntry) :
    (s.setSchedule n x).emitter = s.emitter := rfl
@[simp] theorem State.setSchedule_clips (n : Fin 8) (x : List ScheduleEntry) :
    (s.setSchedule n x).clips = s.clips := rfl
@[simp] theorem State.setSchedule_channels (n : Fin 8) (x : List ScheduleEntry) :
    (s.setSchedule n x).channels = s.channels := rfl
@[simp] theorem State.setSchedule_splice (n : Fin 8) (x : List ScheduleEntry) :
    (s.setSchedule n x).splice = { s.splice with schedules := s.splice.schedules.set n x } := rfl
@[simp] theorem State.setSchedule_counters (n : Fin 8) (x : List ScheduleEntry) :
    (s.setSchedule n x).counters = s.counters := rfl
@[simp] theorem State.setSchedule_alarms (n : Fin 8) (x : List ScheduleEntry) :
    (s.setSchedule n x).alarms = s.alarms := rfl
@[simp] theorem State.setSchedule_runner (n : Fin 8) (x : List ScheduleEntry) :
    (s.setSchedule n x).runner = s.runner := rfl
@[simp] theorem State.setSchedule_engine (n : Fin 8) (x : List ScheduleEntry) :
    (s.setSchedule n x).engine = s.engine := rfl
@[simp] theorem State.setSchedule_out (n : Fin 8) (x : List ScheduleEntry) : (s.setSchedule n x).out = s.out := rfl
@[simp] theorem State.setSchedule_faultCount (n : Fin 8) (x : List ScheduleEntry) :
    (s.setSchedule n x).faultCount = s.faultCount := rfl
@[simp] theorem State.setSchedule_openingTaken (n : Fin 8) (x : List ScheduleEntry) :
    (s.setSchedule n x).openingTaken = s.openingTaken := rfl
@[simp] theorem State.setSchedule_eventDue (n : Fin 8) (x : List ScheduleEntry) :
    (s.setSchedule n x).eventDue = s.eventDue := rfl

/-! ### setService -/

@[simp] theorem State.setService_pending (n : Fin 8) (x : Service) : (s.setService n x).pending = s.pending := rfl
@[simp] theorem State.setService_pins (n : Fin 8) (x : Service) : (s.setService n x).pins = s.pins := rfl
@[simp] theorem State.setService_time (n : Fin 8) (x : Service) : (s.setService n x).time = s.time := rfl
@[simp] theorem State.setService_portA (n : Fin 8) (x : Service) : (s.setService n x).portA = s.portA := rfl
@[simp] theorem State.setService_portB (n : Fin 8) (x : Service) : (s.setService n x).portB = s.portB := rfl
@[simp] theorem State.setService_feeds (n : Fin 8) (x : Service) : (s.setService n x).feeds = s.feeds := rfl
@[simp] theorem State.setService_slots (n : Fin 8) (x : Service) : (s.setService n x).slots = s.slots := rfl
@[simp] theorem State.setService_delay (n : Fin 8) (x : Service) : (s.setService n x).delay = s.delay := rfl
@[simp] theorem State.setService_emitter (n : Fin 8) (x : Service) : (s.setService n x).emitter = s.emitter := rfl
@[simp] theorem State.setService_clips (n : Fin 8) (x : Service) : (s.setService n x).clips = s.clips := rfl
@[simp] theorem State.setService_channels (n : Fin 8) (x : Service) : (s.setService n x).channels = s.channels := rfl
@[simp] theorem State.setService_splice (n : Fin 8) (x : Service) :
    (s.setService n x).splice = { s.splice with services := s.splice.services.set n x } := rfl
@[simp] theorem State.setService_counters (n : Fin 8) (x : Service) : (s.setService n x).counters = s.counters := rfl
@[simp] theorem State.setService_alarms (n : Fin 8) (x : Service) : (s.setService n x).alarms = s.alarms := rfl
@[simp] theorem State.setService_runner (n : Fin 8) (x : Service) : (s.setService n x).runner = s.runner := rfl
@[simp] theorem State.setService_engine (n : Fin 8) (x : Service) : (s.setService n x).engine = s.engine := rfl
@[simp] theorem State.setService_out (n : Fin 8) (x : Service) : (s.setService n x).out = s.out := rfl
@[simp] theorem State.setService_faultCount (n : Fin 8) (x : Service) :
    (s.setService n x).faultCount = s.faultCount := rfl
@[simp] theorem State.setService_openingTaken (n : Fin 8) (x : Service) :
    (s.setService n x).openingTaken = s.openingTaken := rfl
@[simp] theorem State.setService_eventDue (n : Fin 8) (x : Service) :
    (s.setService n x).eventDue = s.eventDue := rfl

/-! ### setCounter -/

@[simp] theorem State.setCounter_pending (n : Fin 4) (x : Counter) : (s.setCounter n x).pending = s.pending := rfl
@[simp] theorem State.setCounter_pins (n : Fin 4) (x : Counter) : (s.setCounter n x).pins = s.pins := rfl
@[simp] theorem State.setCounter_time (n : Fin 4) (x : Counter) : (s.setCounter n x).time = s.time := rfl
@[simp] theorem State.setCounter_portA (n : Fin 4) (x : Counter) : (s.setCounter n x).portA = s.portA := rfl
@[simp] theorem State.setCounter_portB (n : Fin 4) (x : Counter) : (s.setCounter n x).portB = s.portB := rfl
@[simp] theorem State.setCounter_feeds (n : Fin 4) (x : Counter) : (s.setCounter n x).feeds = s.feeds := rfl
@[simp] theorem State.setCounter_slots (n : Fin 4) (x : Counter) : (s.setCounter n x).slots = s.slots := rfl
@[simp] theorem State.setCounter_delay (n : Fin 4) (x : Counter) : (s.setCounter n x).delay = s.delay := rfl
@[simp] theorem State.setCounter_emitter (n : Fin 4) (x : Counter) : (s.setCounter n x).emitter = s.emitter := rfl
@[simp] theorem State.setCounter_clips (n : Fin 4) (x : Counter) : (s.setCounter n x).clips = s.clips := rfl
@[simp] theorem State.setCounter_channels (n : Fin 4) (x : Counter) : (s.setCounter n x).channels = s.channels := rfl
@[simp] theorem State.setCounter_splice (n : Fin 4) (x : Counter) : (s.setCounter n x).splice = s.splice := rfl
@[simp] theorem State.setCounter_counters (n : Fin 4) (x : Counter) :
    (s.setCounter n x).counters = s.counters.set n x := rfl
@[simp] theorem State.setCounter_alarms (n : Fin 4) (x : Counter) : (s.setCounter n x).alarms = s.alarms := rfl
@[simp] theorem State.setCounter_runner (n : Fin 4) (x : Counter) : (s.setCounter n x).runner = s.runner := rfl
@[simp] theorem State.setCounter_engine (n : Fin 4) (x : Counter) : (s.setCounter n x).engine = s.engine := rfl
@[simp] theorem State.setCounter_out (n : Fin 4) (x : Counter) : (s.setCounter n x).out = s.out := rfl
@[simp] theorem State.setCounter_faultCount (n : Fin 4) (x : Counter) :
    (s.setCounter n x).faultCount = s.faultCount := rfl
@[simp] theorem State.setCounter_openingTaken (n : Fin 4) (x : Counter) :
    (s.setCounter n x).openingTaken = s.openingTaken := rfl
@[simp] theorem State.setCounter_eventDue (n : Fin 4) (x : Counter) :
    (s.setCounter n x).eventDue = s.eventDue := rfl

/-! ### setAlarm -/

@[simp] theorem State.setAlarm_pending (n : Fin 4) (x : Alarm) : (s.setAlarm n x).pending = s.pending := rfl
@[simp] theorem State.setAlarm_pins (n : Fin 4) (x : Alarm) : (s.setAlarm n x).pins = s.pins := rfl
@[simp] theorem State.setAlarm_time (n : Fin 4) (x : Alarm) : (s.setAlarm n x).time = s.time := rfl
@[simp] theorem State.setAlarm_portA (n : Fin 4) (x : Alarm) : (s.setAlarm n x).portA = s.portA := rfl
@[simp] theorem State.setAlarm_portB (n : Fin 4) (x : Alarm) : (s.setAlarm n x).portB = s.portB := rfl
@[simp] theorem State.setAlarm_feeds (n : Fin 4) (x : Alarm) : (s.setAlarm n x).feeds = s.feeds := rfl
@[simp] theorem State.setAlarm_slots (n : Fin 4) (x : Alarm) : (s.setAlarm n x).slots = s.slots := rfl
@[simp] theorem State.setAlarm_delay (n : Fin 4) (x : Alarm) : (s.setAlarm n x).delay = s.delay := rfl
@[simp] theorem State.setAlarm_emitter (n : Fin 4) (x : Alarm) : (s.setAlarm n x).emitter = s.emitter := rfl
@[simp] theorem State.setAlarm_clips (n : Fin 4) (x : Alarm) : (s.setAlarm n x).clips = s.clips := rfl
@[simp] theorem State.setAlarm_channels (n : Fin 4) (x : Alarm) : (s.setAlarm n x).channels = s.channels := rfl
@[simp] theorem State.setAlarm_splice (n : Fin 4) (x : Alarm) : (s.setAlarm n x).splice = s.splice := rfl
@[simp] theorem State.setAlarm_counters (n : Fin 4) (x : Alarm) : (s.setAlarm n x).counters = s.counters := rfl
@[simp] theorem State.setAlarm_alarms (n : Fin 4) (x : Alarm) : (s.setAlarm n x).alarms = s.alarms.set n x := rfl
@[simp] theorem State.setAlarm_runner (n : Fin 4) (x : Alarm) : (s.setAlarm n x).runner = s.runner := rfl
@[simp] theorem State.setAlarm_engine (n : Fin 4) (x : Alarm) : (s.setAlarm n x).engine = s.engine := rfl
@[simp] theorem State.setAlarm_out (n : Fin 4) (x : Alarm) : (s.setAlarm n x).out = s.out := rfl
@[simp] theorem State.setAlarm_faultCount (n : Fin 4) (x : Alarm) : (s.setAlarm n x).faultCount = s.faultCount := rfl
@[simp] theorem State.setAlarm_openingTaken (n : Fin 4) (x : Alarm) :
    (s.setAlarm n x).openingTaken = s.openingTaken := rfl
@[simp] theorem State.setAlarm_eventDue (n : Fin 4) (x : Alarm) :
    (s.setAlarm n x).eventDue = s.eventDue := rfl

/-! ### send -/

@[simp] theorem State.send_pending (c : Cell) : (s.send c).pending = s.pending := rfl
@[simp] theorem State.send_pins (c : Cell) : (s.send c).pins = s.pins := rfl
@[simp] theorem State.send_time (c : Cell) : (s.send c).time = s.time := rfl
@[simp] theorem State.send_portA (c : Cell) : (s.send c).portA = s.portA := rfl
@[simp] theorem State.send_portB (c : Cell) : (s.send c).portB = s.portB := rfl
@[simp] theorem State.send_feeds (c : Cell) : (s.send c).feeds = s.feeds := rfl
@[simp] theorem State.send_slots (c : Cell) : (s.send c).slots = s.slots := rfl
@[simp] theorem State.send_delay (c : Cell) : (s.send c).delay = s.delay := rfl
@[simp] theorem State.send_emitter (c : Cell) : (s.send c).emitter = s.emitter := rfl
@[simp] theorem State.send_clips (c : Cell) : (s.send c).clips = s.clips := rfl
@[simp] theorem State.send_channels (c : Cell) : (s.send c).channels = s.channels := rfl
@[simp] theorem State.send_splice (c : Cell) : (s.send c).splice = s.splice := rfl
@[simp] theorem State.send_counters (c : Cell) : (s.send c).counters = s.counters := rfl
@[simp] theorem State.send_alarms (c : Cell) : (s.send c).alarms = s.alarms := rfl
@[simp] theorem State.send_runner (c : Cell) : (s.send c).runner = s.runner := rfl
@[simp] theorem State.send_engine (c : Cell) : (s.send c).engine = s.engine := rfl
@[simp] theorem State.send_out (c : Cell) :
    (s.send c).out = { s.out with cell := some c, cells := s.out.cells + 1 } := rfl
@[simp] theorem State.send_faultCount (c : Cell) : (s.send c).faultCount = s.faultCount := rfl
@[simp] theorem State.send_openingTaken (c : Cell) : (s.send c).openingTaken = s.openingTaken := rfl
@[simp] theorem State.send_eventDue (c : Cell) : (s.send c).eventDue = s.eventDue := rfl

/-! ### latch -/

@[simp] theorem State.latch_pending (e : Event) : (s.latch e).pending = s.pending := rfl
@[simp] theorem State.latch_pins (e : Event) : (s.latch e).pins = s.pins := rfl
@[simp] theorem State.latch_time (e : Event) : (s.latch e).time = s.time := rfl
@[simp] theorem State.latch_portA (e : Event) : (s.latch e).portA = s.portA := rfl
@[simp] theorem State.latch_portB (e : Event) : (s.latch e).portB = s.portB := rfl
@[simp] theorem State.latch_feeds (e : Event) : (s.latch e).feeds = s.feeds := rfl
@[simp] theorem State.latch_slots (e : Event) : (s.latch e).slots = s.slots := rfl
@[simp] theorem State.latch_delay (e : Event) : (s.latch e).delay = s.delay := rfl
@[simp] theorem State.latch_emitter (e : Event) : (s.latch e).emitter = s.emitter := rfl
@[simp] theorem State.latch_clips (e : Event) : (s.latch e).clips = s.clips := rfl
@[simp] theorem State.latch_channels (e : Event) : (s.latch e).channels = s.channels := rfl
@[simp] theorem State.latch_splice (e : Event) : (s.latch e).splice = s.splice := rfl
@[simp] theorem State.latch_counters (e : Event) : (s.latch e).counters = s.counters := rfl
@[simp] theorem State.latch_alarms (e : Event) : (s.latch e).alarms = s.alarms := rfl
@[simp] theorem State.latch_runner (e : Event) : (s.latch e).runner = s.runner := rfl
@[simp] theorem State.latch_engine (e : Event) : (s.latch e).engine = s.engine.latch e := rfl
@[simp] theorem State.latch_out (e : Event) : (s.latch e).out = s.out := rfl
@[simp] theorem State.latch_faultCount (e : Event) : (s.latch e).faultCount = s.faultCount := rfl
@[simp] theorem State.latch_openingTaken (e : Event) : (s.latch e).openingTaken = s.openingTaken := rfl
@[simp] theorem State.latch_eventDue (e : Event) : (s.latch e).eventDue = s.eventDue := rfl

/-! ### queueReport -/

@[simp] theorem State.queueReport_pending (r : Report) : (s.queueReport r).pending = s.pending := rfl
@[simp] theorem State.queueReport_pins (r : Report) : (s.queueReport r).pins = s.pins := rfl
@[simp] theorem State.queueReport_time (r : Report) : (s.queueReport r).time = s.time := rfl
@[simp] theorem State.queueReport_portA (r : Report) : (s.queueReport r).portA = s.portA := rfl
@[simp] theorem State.queueReport_portB (r : Report) : (s.queueReport r).portB = s.portB := rfl
@[simp] theorem State.queueReport_feeds (r : Report) : (s.queueReport r).feeds = s.feeds := rfl
@[simp] theorem State.queueReport_slots (r : Report) : (s.queueReport r).slots = s.slots := rfl
@[simp] theorem State.queueReport_delay (r : Report) : (s.queueReport r).delay = s.delay := rfl
@[simp] theorem State.queueReport_emitter (r : Report) : (s.queueReport r).emitter = s.emitter := rfl
@[simp] theorem State.queueReport_clips (r : Report) : (s.queueReport r).clips = s.clips := rfl
@[simp] theorem State.queueReport_channels (r : Report) : (s.queueReport r).channels = s.channels := rfl
@[simp] theorem State.queueReport_splice (r : Report) : (s.queueReport r).splice = s.splice := rfl
@[simp] theorem State.queueReport_counters (r : Report) : (s.queueReport r).counters = s.counters := rfl
@[simp] theorem State.queueReport_alarms (r : Report) : (s.queueReport r).alarms = s.alarms := rfl
@[simp] theorem State.queueReport_runner (r : Report) : (s.queueReport r).runner = s.runner := rfl
@[simp] theorem State.queueReport_engine (r : Report) : (s.queueReport r).engine = s.engine.queueReport r := rfl
@[simp] theorem State.queueReport_out (r : Report) : (s.queueReport r).out = s.out := rfl
@[simp] theorem State.queueReport_faultCount (r : Report) : (s.queueReport r).faultCount = s.faultCount := rfl
@[simp] theorem State.queueReport_openingTaken (r : Report) : (s.queueReport r).openingTaken = s.openingTaken := rfl
@[simp] theorem State.queueReport_eventDue (r : Report) : (s.queueReport r).eventDue = s.eventDue := rfl

/-! ### engineSecond -/

@[simp] theorem State.engineSecond_pending : (s.engineSecond).pending = s.pending := rfl
@[simp] theorem State.engineSecond_pins : (s.engineSecond).pins = s.pins := rfl
@[simp] theorem State.engineSecond_time : (s.engineSecond).time = s.time := rfl
@[simp] theorem State.engineSecond_portA : (s.engineSecond).portA = s.portA := rfl
@[simp] theorem State.engineSecond_portB : (s.engineSecond).portB = s.portB := rfl
@[simp] theorem State.engineSecond_feeds : (s.engineSecond).feeds = s.feeds := rfl
@[simp] theorem State.engineSecond_slots : (s.engineSecond).slots = s.slots := rfl
@[simp] theorem State.engineSecond_delay : (s.engineSecond).delay = s.delay := rfl
@[simp] theorem State.engineSecond_emitter : (s.engineSecond).emitter = s.emitter := rfl
@[simp] theorem State.engineSecond_clips : (s.engineSecond).clips = s.clips := rfl
@[simp] theorem State.engineSecond_channels : (s.engineSecond).channels = s.channels := rfl
@[simp] theorem State.engineSecond_splice : (s.engineSecond).splice = s.splice := rfl
@[simp] theorem State.engineSecond_counters : (s.engineSecond).counters = s.counters := rfl
@[simp] theorem State.engineSecond_alarms : (s.engineSecond).alarms = s.alarms := rfl
@[simp] theorem State.engineSecond_runner : (s.engineSecond).runner = s.runner := rfl
@[simp] theorem State.engineSecond_engine : (s.engineSecond).engine = s.engine.secondBoundary s.now := rfl
@[simp] theorem State.engineSecond_out : (s.engineSecond).out = s.out := rfl
@[simp] theorem State.engineSecond_faultCount : (s.engineSecond).faultCount = s.faultCount := rfl
@[simp] theorem State.engineSecond_openingTaken : (s.engineSecond).openingTaken = s.openingTaken := rfl
@[simp] theorem State.engineSecond_eventDue : (s.engineSecond).eventDue = s.eventDue := rfl

/-! ### pendWhere -/

@[simp] theorem State.pendWhere_pending (p : LabelRecord → Bool) : (s.pendWhere p).pending = s.pending := rfl
@[simp] theorem State.pendWhere_pins (p : LabelRecord → Bool) : (s.pendWhere p).pins = s.pins := rfl
@[simp] theorem State.pendWhere_time (p : LabelRecord → Bool) : (s.pendWhere p).time = s.time := rfl
@[simp] theorem State.pendWhere_portA (p : LabelRecord → Bool) : (s.pendWhere p).portA = s.portA := rfl
@[simp] theorem State.pendWhere_portB (p : LabelRecord → Bool) : (s.pendWhere p).portB = s.portB := rfl
@[simp] theorem State.pendWhere_feeds (p : LabelRecord → Bool) : (s.pendWhere p).feeds = s.feeds := rfl
@[simp] theorem State.pendWhere_slots (p : LabelRecord → Bool) : (s.pendWhere p).slots = s.slots := rfl
@[simp] theorem State.pendWhere_delay (p : LabelRecord → Bool) : (s.pendWhere p).delay = s.delay := rfl
@[simp] theorem State.pendWhere_emitter (p : LabelRecord → Bool) :
    (s.pendWhere p).emitter = { s.emitter with labels := s.emitter.labels.map fun r => if p r then { r with pending := true } else r } := rfl
@[simp] theorem State.pendWhere_clips (p : LabelRecord → Bool) : (s.pendWhere p).clips = s.clips := rfl
@[simp] theorem State.pendWhere_channels (p : LabelRecord → Bool) : (s.pendWhere p).channels = s.channels := rfl
@[simp] theorem State.pendWhere_splice (p : LabelRecord → Bool) : (s.pendWhere p).splice = s.splice := rfl
@[simp] theorem State.pendWhere_counters (p : LabelRecord → Bool) : (s.pendWhere p).counters = s.counters := rfl
@[simp] theorem State.pendWhere_alarms (p : LabelRecord → Bool) : (s.pendWhere p).alarms = s.alarms := rfl
@[simp] theorem State.pendWhere_runner (p : LabelRecord → Bool) : (s.pendWhere p).runner = s.runner := rfl
@[simp] theorem State.pendWhere_engine (p : LabelRecord → Bool) : (s.pendWhere p).engine = s.engine := rfl
@[simp] theorem State.pendWhere_out (p : LabelRecord → Bool) : (s.pendWhere p).out = s.out := rfl
@[simp] theorem State.pendWhere_faultCount (p : LabelRecord → Bool) : (s.pendWhere p).faultCount = s.faultCount := rfl
@[simp] theorem State.pendWhere_openingTaken (p : LabelRecord → Bool) :
    (s.pendWhere p).openingTaken = s.openingTaken := rfl
@[simp] theorem State.pendWhere_eventDue (p : LabelRecord → Bool) :
    (s.pendWhere p).eventDue = s.eventDue := rfl

/-! ### countSlots -/

@[simp] theorem State.countSlots_pending (k : SlotCounts → SlotCounts) : (s.countSlots k).pending = s.pending := rfl
@[simp] theorem State.countSlots_pins (k : SlotCounts → SlotCounts) : (s.countSlots k).pins = s.pins := rfl
@[simp] theorem State.countSlots_time (k : SlotCounts → SlotCounts) : (s.countSlots k).time = s.time := rfl
@[simp] theorem State.countSlots_portA (k : SlotCounts → SlotCounts) : (s.countSlots k).portA = s.portA := rfl
@[simp] theorem State.countSlots_portB (k : SlotCounts → SlotCounts) : (s.countSlots k).portB = s.portB := rfl
@[simp] theorem State.countSlots_feeds (k : SlotCounts → SlotCounts) : (s.countSlots k).feeds = s.feeds := rfl
@[simp] theorem State.countSlots_slots (k : SlotCounts → SlotCounts) :
    (s.countSlots k).slots = { s.slots with counts := k s.slots.counts } := rfl
@[simp] theorem State.countSlots_delay (k : SlotCounts → SlotCounts) : (s.countSlots k).delay = s.delay := rfl
@[simp] theorem State.countSlots_emitter (k : SlotCounts → SlotCounts) : (s.countSlots k).emitter = s.emitter := rfl
@[simp] theorem State.countSlots_clips (k : SlotCounts → SlotCounts) : (s.countSlots k).clips = s.clips := rfl
@[simp] theorem State.countSlots_channels (k : SlotCounts → SlotCounts) :
    (s.countSlots k).channels = s.channels := rfl
@[simp] theorem State.countSlots_splice (k : SlotCounts → SlotCounts) : (s.countSlots k).splice = s.splice := rfl
@[simp] theorem State.countSlots_counters (k : SlotCounts → SlotCounts) :
    (s.countSlots k).counters = s.counters := rfl
@[simp] theorem State.countSlots_alarms (k : SlotCounts → SlotCounts) : (s.countSlots k).alarms = s.alarms := rfl
@[simp] theorem State.countSlots_runner (k : SlotCounts → SlotCounts) : (s.countSlots k).runner = s.runner := rfl
@[simp] theorem State.countSlots_engine (k : SlotCounts → SlotCounts) : (s.countSlots k).engine = s.engine := rfl
@[simp] theorem State.countSlots_out (k : SlotCounts → SlotCounts) : (s.countSlots k).out = s.out := rfl
@[simp] theorem State.countSlots_faultCount (k : SlotCounts → SlotCounts) :
    (s.countSlots k).faultCount = s.faultCount := rfl
@[simp] theorem State.countSlots_openingTaken (k : SlotCounts → SlotCounts) :
    (s.countSlots k).openingTaken = s.openingTaken := rfl
@[simp] theorem State.countSlots_eventDue (k : SlotCounts → SlotCounts) :
    (s.countSlots k).eventDue = s.eventDue := rfl

/-! ### countEmitter -/

@[simp] theorem State.countEmitter_pending (k : EmitterCounts → EmitterCounts) :
    (s.countEmitter k).pending = s.pending := rfl
@[simp] theorem State.countEmitter_pins (k : EmitterCounts → EmitterCounts) : (s.countEmitter k).pins = s.pins := rfl
@[simp] theorem State.countEmitter_time (k : EmitterCounts → EmitterCounts) : (s.countEmitter k).time = s.time := rfl
@[simp] theorem State.countEmitter_portA (k : EmitterCounts → EmitterCounts) :
    (s.countEmitter k).portA = s.portA := rfl
@[simp] theorem State.countEmitter_portB (k : EmitterCounts → EmitterCounts) :
    (s.countEmitter k).portB = s.portB := rfl
@[simp] theorem State.countEmitter_feeds (k : EmitterCounts → EmitterCounts) :
    (s.countEmitter k).feeds = s.feeds := rfl
@[simp] theorem State.countEmitter_slots (k : EmitterCounts → EmitterCounts) :
    (s.countEmitter k).slots = s.slots := rfl
@[simp] theorem State.countEmitter_delay (k : EmitterCounts → EmitterCounts) :
    (s.countEmitter k).delay = s.delay := rfl
@[simp] theorem State.countEmitter_emitter (k : EmitterCounts → EmitterCounts) :
    (s.countEmitter k).emitter = { s.emitter with counts := k s.emitter.counts } := rfl
@[simp] theorem State.countEmitter_clips (k : EmitterCounts → EmitterCounts) :
    (s.countEmitter k).clips = s.clips := rfl
@[simp] theorem State.countEmitter_channels (k : EmitterCounts → EmitterCounts) :
    (s.countEmitter k).channels = s.channels := rfl
@[simp] theorem State.countEmitter_splice (k : EmitterCounts → EmitterCounts) :
    (s.countEmitter k).splice = s.splice := rfl
@[simp] theorem State.countEmitter_counters (k : EmitterCounts → EmitterCounts) :
    (s.countEmitter k).counters = s.counters := rfl
@[simp] theorem State.countEmitter_alarms (k : EmitterCounts → EmitterCounts) :
    (s.countEmitter k).alarms = s.alarms := rfl
@[simp] theorem State.countEmitter_runner (k : EmitterCounts → EmitterCounts) :
    (s.countEmitter k).runner = s.runner := rfl
@[simp] theorem State.countEmitter_engine (k : EmitterCounts → EmitterCounts) :
    (s.countEmitter k).engine = s.engine := rfl
@[simp] theorem State.countEmitter_out (k : EmitterCounts → EmitterCounts) : (s.countEmitter k).out = s.out := rfl
@[simp] theorem State.countEmitter_faultCount (k : EmitterCounts → EmitterCounts) :
    (s.countEmitter k).faultCount = s.faultCount := rfl
@[simp] theorem State.countEmitter_openingTaken (k : EmitterCounts → EmitterCounts) :
    (s.countEmitter k).openingTaken = s.openingTaken := rfl
@[simp] theorem State.countEmitter_eventDue (k : EmitterCounts → EmitterCounts) :
    (s.countEmitter k).eventDue = s.eventDue := rfl

/-! ### addUnsent -/

@[simp] theorem State.addUnsent_pending (n : Nat) : (s.addUnsent n).pending = s.pending := rfl
@[simp] theorem State.addUnsent_pins (n : Nat) : (s.addUnsent n).pins = s.pins := rfl
@[simp] theorem State.addUnsent_time (n : Nat) : (s.addUnsent n).time = s.time := rfl
@[simp] theorem State.addUnsent_portA (n : Nat) : (s.addUnsent n).portA = s.portA := rfl
@[simp] theorem State.addUnsent_portB (n : Nat) : (s.addUnsent n).portB = s.portB := rfl
@[simp] theorem State.addUnsent_feeds (n : Nat) : (s.addUnsent n).feeds = s.feeds := rfl
@[simp] theorem State.addUnsent_slots (n : Nat) : (s.addUnsent n).slots = s.slots := rfl
@[simp] theorem State.addUnsent_delay (n : Nat) : (s.addUnsent n).delay = s.delay := rfl
@[simp] theorem State.addUnsent_emitter (n : Nat) :
    (s.addUnsent n).emitter = { s.emitter with counts := { s.emitter.counts with unsent := s.emitter.counts.unsent + BitVec.ofNat 32 n } } := rfl
@[simp] theorem State.addUnsent_clips (n : Nat) : (s.addUnsent n).clips = s.clips := rfl
@[simp] theorem State.addUnsent_channels (n : Nat) : (s.addUnsent n).channels = s.channels := rfl
@[simp] theorem State.addUnsent_splice (n : Nat) : (s.addUnsent n).splice = s.splice := rfl
@[simp] theorem State.addUnsent_counters (n : Nat) : (s.addUnsent n).counters = s.counters := rfl
@[simp] theorem State.addUnsent_alarms (n : Nat) : (s.addUnsent n).alarms = s.alarms := rfl
@[simp] theorem State.addUnsent_runner (n : Nat) : (s.addUnsent n).runner = s.runner := rfl
@[simp] theorem State.addUnsent_engine (n : Nat) : (s.addUnsent n).engine = s.engine := rfl
@[simp] theorem State.addUnsent_out (n : Nat) : (s.addUnsent n).out = s.out := rfl
@[simp] theorem State.addUnsent_faultCount (n : Nat) : (s.addUnsent n).faultCount = s.faultCount := rfl
@[simp] theorem State.addUnsent_openingTaken (n : Nat) : (s.addUnsent n).openingTaken = s.openingTaken := rfl
@[simp] theorem State.addUnsent_eventDue (n : Nat) : (s.addUnsent n).eventDue = s.eventDue := rfl

/-! ### toIdle -/

@[simp] theorem State.toIdle_pending : (s.toIdle).pending = s.pending := rfl
@[simp] theorem State.toIdle_pins : (s.toIdle).pins = s.pins := rfl
@[simp] theorem State.toIdle_time : (s.toIdle).time = s.time := rfl
@[simp] theorem State.toIdle_portA : (s.toIdle).portA = s.portA := rfl
@[simp] theorem State.toIdle_portB : (s.toIdle).portB = s.portB := rfl
@[simp] theorem State.toIdle_feeds : (s.toIdle).feeds = s.feeds := rfl
@[simp] theorem State.toIdle_slots : (s.toIdle).slots = s.slots := rfl
@[simp] theorem State.toIdle_delay : (s.toIdle).delay = s.delay := rfl
@[simp] theorem State.toIdle_emitter : (s.toIdle).emitter = { s.emitter with state := .idle, timer := 0 } := rfl
@[simp] theorem State.toIdle_clips : (s.toIdle).clips = s.clips := rfl
@[simp] theorem State.toIdle_channels : (s.toIdle).channels = s.channels := rfl
@[simp] theorem State.toIdle_splice : (s.toIdle).splice = s.splice := rfl
@[simp] theorem State.toIdle_counters : (s.toIdle).counters = s.counters := rfl
@[simp] theorem State.toIdle_alarms : (s.toIdle).alarms = s.alarms := rfl
@[simp] theorem State.toIdle_runner : (s.toIdle).runner = s.runner := rfl
@[simp] theorem State.toIdle_engine : (s.toIdle).engine = s.engine := rfl
@[simp] theorem State.toIdle_out : (s.toIdle).out = s.out := rfl
@[simp] theorem State.toIdle_faultCount : (s.toIdle).faultCount = s.faultCount := rfl
@[simp] theorem State.toIdle_openingTaken : (s.toIdle).openingTaken = s.openingTaken := rfl
@[simp] theorem State.toIdle_eventDue : (s.toIdle).eventDue = s.eventDue := rfl

/-! ### sendNull -/

@[simp] theorem State.sendNull_pending : (s.sendNull).pending = s.pending := rfl
@[simp] theorem State.sendNull_pins : (s.sendNull).pins = s.pins := rfl
@[simp] theorem State.sendNull_time : (s.sendNull).time = s.time := rfl
@[simp] theorem State.sendNull_portA : (s.sendNull).portA = s.portA := rfl
@[simp] theorem State.sendNull_portB : (s.sendNull).portB = s.portB := rfl
@[simp] theorem State.sendNull_feeds : (s.sendNull).feeds = s.feeds := rfl
@[simp] theorem State.sendNull_slots : (s.sendNull).slots = s.slots := rfl
@[simp] theorem State.sendNull_delay : (s.sendNull).delay = s.delay := rfl
@[simp] theorem State.sendNull_emitter : (s.sendNull).emitter = s.emitter := rfl
@[simp] theorem State.sendNull_clips : (s.sendNull).clips = s.clips := rfl
@[simp] theorem State.sendNull_channels : (s.sendNull).channels = s.channels := rfl
@[simp] theorem State.sendNull_splice : (s.sendNull).splice = s.splice := rfl
@[simp] theorem State.sendNull_counters : (s.sendNull).counters = s.counters := rfl
@[simp] theorem State.sendNull_alarms : (s.sendNull).alarms = s.alarms := rfl
@[simp] theorem State.sendNull_runner : (s.sendNull).runner = s.runner := rfl
@[simp] theorem State.sendNull_engine : (s.sendNull).engine = s.engine := rfl
@[simp] theorem State.sendNull_out :
    (s.sendNull).out = { s.out with cell := some nullCell, cells := s.out.cells + 1 } := rfl
@[simp] theorem State.sendNull_faultCount : (s.sendNull).faultCount = s.faultCount := rfl
@[simp] theorem State.sendNull_openingTaken : (s.sendNull).openingTaken = s.openingTaken := rfl
@[simp] theorem State.sendNull_eventDue : (s.sendNull).eventDue = s.eventDue := rfl

/-! ### movePhase -/

@[simp] theorem State.movePhase_pending (x : Stamp) (k : Nat) : (s.movePhase x k).pending = s.pending := rfl
@[simp] theorem State.movePhase_pins (x : Stamp) (k : Nat) : (s.movePhase x k).pins = s.pins := rfl
@[simp] theorem State.movePhase_time (x : Stamp) (k : Nat) : (s.movePhase x k).time = s.time := rfl
@[simp] theorem State.movePhase_portA (x : Stamp) (k : Nat) : (s.movePhase x k).portA = s.portA := rfl
@[simp] theorem State.movePhase_portB (x : Stamp) (k : Nat) : (s.movePhase x k).portB = s.portB := rfl
@[simp] theorem State.movePhase_feeds (x : Stamp) (k : Nat) : (s.movePhase x k).feeds = s.feeds := rfl
@[simp] theorem State.movePhase_slots (x : Stamp) (k : Nat) : (s.movePhase x k).slots = s.slots := rfl
@[simp] theorem State.movePhase_delay (x : Stamp) (k : Nat) : (s.movePhase x k).delay = s.delay := rfl
@[simp] theorem State.movePhase_emitter (x : Stamp) (k : Nat) :
    (s.movePhase x k).emitter = { s.emitter with phase := ⟨x, k⟩, period := s.emitter.nextPeriod, pendingPeriod := none } := rfl
@[simp] theorem State.movePhase_clips (x : Stamp) (k : Nat) : (s.movePhase x k).clips = s.clips := rfl
@[simp] theorem State.movePhase_channels (x : Stamp) (k : Nat) : (s.movePhase x k).channels = s.channels := rfl
@[simp] theorem State.movePhase_splice (x : Stamp) (k : Nat) : (s.movePhase x k).splice = s.splice := rfl
@[simp] theorem State.movePhase_counters (x : Stamp) (k : Nat) : (s.movePhase x k).counters = s.counters := rfl
@[simp] theorem State.movePhase_alarms (x : Stamp) (k : Nat) : (s.movePhase x k).alarms = s.alarms := rfl
@[simp] theorem State.movePhase_runner (x : Stamp) (k : Nat) : (s.movePhase x k).runner = s.runner := rfl
@[simp] theorem State.movePhase_engine (x : Stamp) (k : Nat) : (s.movePhase x k).engine = s.engine := rfl
@[simp] theorem State.movePhase_out (x : Stamp) (k : Nat) : (s.movePhase x k).out = s.out := rfl
@[simp] theorem State.movePhase_faultCount (x : Stamp) (k : Nat) : (s.movePhase x k).faultCount = s.faultCount := rfl
@[simp] theorem State.movePhase_openingTaken (x : Stamp) (k : Nat) :
    (s.movePhase x k).openingTaken = s.openingTaken := rfl
@[simp] theorem State.movePhase_eventDue (x : Stamp) (k : Nat) :
    (s.movePhase x k).eventDue = s.eventDue := rfl

/-! ### unqueue -/

@[simp] theorem State.unqueue_pending (i : Fin 256) : (s.unqueue i).pending = s.pending := rfl
@[simp] theorem State.unqueue_pins (i : Fin 256) : (s.unqueue i).pins = s.pins := rfl
@[simp] theorem State.unqueue_time (i : Fin 256) : (s.unqueue i).time = s.time := rfl
@[simp] theorem State.unqueue_portA (i : Fin 256) : (s.unqueue i).portA = s.portA := rfl
@[simp] theorem State.unqueue_portB (i : Fin 256) : (s.unqueue i).portB = s.portB := rfl
@[simp] theorem State.unqueue_feeds (i : Fin 256) : (s.unqueue i).feeds = s.feeds := rfl
@[simp] theorem State.unqueue_slots (i : Fin 256) : (s.unqueue i).slots = { s.slots with queue := s.slots.queue.erase i } := rfl
@[simp] theorem State.unqueue_delay (i : Fin 256) : (s.unqueue i).delay = s.delay := rfl
@[simp] theorem State.unqueue_emitter (i : Fin 256) : (s.unqueue i).emitter = s.emitter := rfl
@[simp] theorem State.unqueue_clips (i : Fin 256) : (s.unqueue i).clips = s.clips := rfl
@[simp] theorem State.unqueue_channels (i : Fin 256) : (s.unqueue i).channels = s.channels := rfl
@[simp] theorem State.unqueue_splice (i : Fin 256) : (s.unqueue i).splice = s.splice := rfl
@[simp] theorem State.unqueue_counters (i : Fin 256) : (s.unqueue i).counters = s.counters := rfl
@[simp] theorem State.unqueue_alarms (i : Fin 256) : (s.unqueue i).alarms = s.alarms := rfl
@[simp] theorem State.unqueue_runner (i : Fin 256) : (s.unqueue i).runner = s.runner := rfl
@[simp] theorem State.unqueue_engine (i : Fin 256) : (s.unqueue i).engine = s.engine := rfl
@[simp] theorem State.unqueue_out (i : Fin 256) : (s.unqueue i).out = s.out := rfl
@[simp] theorem State.unqueue_faultCount (i : Fin 256) : (s.unqueue i).faultCount = s.faultCount := rfl
@[simp] theorem State.unqueue_openingTaken (i : Fin 256) : (s.unqueue i).openingTaken = s.openingTaken := rfl
@[simp] theorem State.unqueue_eventDue (i : Fin 256) : (s.unqueue i).eventDue = s.eventDue := rfl

/-! ### withTime -/

@[simp] theorem State.withTime_pending (t : SiteTime) : (s.withTime t).pending = s.pending := rfl
@[simp] theorem State.withTime_pins (t : SiteTime) : (s.withTime t).pins = s.pins := rfl
@[simp] theorem State.withTime_time (t : SiteTime) : (s.withTime t).time = t := rfl
@[simp] theorem State.withTime_portA (t : SiteTime) : (s.withTime t).portA = s.portA := rfl
@[simp] theorem State.withTime_portB (t : SiteTime) : (s.withTime t).portB = s.portB := rfl
@[simp] theorem State.withTime_feeds (t : SiteTime) : (s.withTime t).feeds = s.feeds := rfl
@[simp] theorem State.withTime_slots (t : SiteTime) : (s.withTime t).slots = s.slots := rfl
@[simp] theorem State.withTime_delay (t : SiteTime) : (s.withTime t).delay = s.delay := rfl
@[simp] theorem State.withTime_emitter (t : SiteTime) : (s.withTime t).emitter = s.emitter := rfl
@[simp] theorem State.withTime_clips (t : SiteTime) : (s.withTime t).clips = s.clips := rfl
@[simp] theorem State.withTime_channels (t : SiteTime) : (s.withTime t).channels = s.channels := rfl
@[simp] theorem State.withTime_splice (t : SiteTime) : (s.withTime t).splice = s.splice := rfl
@[simp] theorem State.withTime_counters (t : SiteTime) : (s.withTime t).counters = s.counters := rfl
@[simp] theorem State.withTime_alarms (t : SiteTime) : (s.withTime t).alarms = s.alarms := rfl
@[simp] theorem State.withTime_runner (t : SiteTime) : (s.withTime t).runner = s.runner := rfl
@[simp] theorem State.withTime_engine (t : SiteTime) : (s.withTime t).engine = s.engine := rfl
@[simp] theorem State.withTime_out (t : SiteTime) : (s.withTime t).out = s.out := rfl
@[simp] theorem State.withTime_faultCount (t : SiteTime) : (s.withTime t).faultCount = s.faultCount := rfl
@[simp] theorem State.withTime_openingTaken (t : SiteTime) : (s.withTime t).openingTaken = s.openingTaken := rfl
@[simp] theorem State.withTime_eventDue (t : SiteTime) : (s.withTime t).eventDue = s.eventDue := rfl

/-! ### noteOpening -/

@[simp] theorem State.noteOpening_pending : s.noteOpening.pending = s.pending := rfl
@[simp] theorem State.noteOpening_pins : s.noteOpening.pins = s.pins := rfl
@[simp] theorem State.noteOpening_time : s.noteOpening.time = s.time := rfl
@[simp] theorem State.noteOpening_portA : s.noteOpening.portA = s.portA := rfl
@[simp] theorem State.noteOpening_portB : s.noteOpening.portB = s.portB := rfl
@[simp] theorem State.noteOpening_feeds : s.noteOpening.feeds = s.feeds := rfl
@[simp] theorem State.noteOpening_slots : s.noteOpening.slots = s.slots := rfl
@[simp] theorem State.noteOpening_delay : s.noteOpening.delay = s.delay := rfl
@[simp] theorem State.noteOpening_emitter : s.noteOpening.emitter = s.emitter := rfl
@[simp] theorem State.noteOpening_clips : s.noteOpening.clips = s.clips := rfl
@[simp] theorem State.noteOpening_channels : s.noteOpening.channels = s.channels := rfl
@[simp] theorem State.noteOpening_splice : s.noteOpening.splice = s.splice := rfl
@[simp] theorem State.noteOpening_counters : s.noteOpening.counters = s.counters := rfl
@[simp] theorem State.noteOpening_alarms : s.noteOpening.alarms = s.alarms := rfl
@[simp] theorem State.noteOpening_runner : s.noteOpening.runner = s.runner := rfl
@[simp] theorem State.noteOpening_engine : s.noteOpening.engine = s.engine := rfl
@[simp] theorem State.noteOpening_out : s.noteOpening.out = s.out := rfl
@[simp] theorem State.noteOpening_faultCount : s.noteOpening.faultCount = s.faultCount := rfl
@[simp] theorem State.noteOpening_openingTaken : s.noteOpening.openingTaken =
    decide (s.time.ticks.val = s.time.windowOpens) := rfl
@[simp] theorem State.noteOpening_eventDue : s.noteOpening.eventDue = s.eventDue := rfl

/-! ### dropOpening -/

@[simp] theorem State.dropOpening_pending : s.dropOpening.pending = s.pending := rfl
@[simp] theorem State.dropOpening_pins : s.dropOpening.pins = s.pins := rfl
@[simp] theorem State.dropOpening_time : s.dropOpening.time = s.time := rfl
@[simp] theorem State.dropOpening_portA : s.dropOpening.portA = s.portA := rfl
@[simp] theorem State.dropOpening_portB : s.dropOpening.portB = s.portB := rfl
@[simp] theorem State.dropOpening_feeds : s.dropOpening.feeds = s.feeds := rfl
@[simp] theorem State.dropOpening_slots : s.dropOpening.slots = s.slots := rfl
@[simp] theorem State.dropOpening_delay : s.dropOpening.delay = s.delay := rfl
@[simp] theorem State.dropOpening_emitter : s.dropOpening.emitter = s.emitter := rfl
@[simp] theorem State.dropOpening_clips : s.dropOpening.clips = s.clips := rfl
@[simp] theorem State.dropOpening_channels : s.dropOpening.channels = s.channels := rfl
@[simp] theorem State.dropOpening_splice : s.dropOpening.splice = s.splice := rfl
@[simp] theorem State.dropOpening_counters : s.dropOpening.counters = s.counters := rfl
@[simp] theorem State.dropOpening_alarms : s.dropOpening.alarms = s.alarms := rfl
@[simp] theorem State.dropOpening_runner : s.dropOpening.runner = s.runner := rfl
@[simp] theorem State.dropOpening_engine : s.dropOpening.engine = s.engine := rfl
@[simp] theorem State.dropOpening_out : s.dropOpening.out = s.out := rfl
@[simp] theorem State.dropOpening_faultCount : s.dropOpening.faultCount = s.faultCount := rfl
@[simp] theorem State.dropOpening_openingTaken : s.dropOpening.openingTaken = false := rfl
@[simp] theorem State.dropOpening_eventDue : s.dropOpening.eventDue = s.eventDue := rfl

/-! ### laterPorts -/

@[simp] theorem State.laterPorts_pending : s.laterPorts.pending = s.pending := rfl
@[simp] theorem State.laterPorts_pins : s.laterPorts.pins = s.pins := rfl
@[simp] theorem State.laterPorts_time : s.laterPorts.time = s.time := rfl
@[simp] theorem State.laterPorts_portA : s.laterPorts.portA = s.portA.later := rfl

/-! ### takeEvent -/

@[simp] theorem State.takeEvent_pending : s.takeEvent.pending = s.pending := rfl
@[simp] theorem State.takeEvent_pins : s.takeEvent.pins = s.pins := rfl
@[simp] theorem State.takeEvent_time : s.takeEvent.time = s.time := rfl
@[simp] theorem State.takeEvent_portA : s.takeEvent.portA = s.portA := rfl
@[simp] theorem State.takeEvent_portB : s.takeEvent.portB = s.portB := rfl
@[simp] theorem State.takeEvent_feeds : s.takeEvent.feeds = s.feeds := rfl
@[simp] theorem State.takeEvent_slots : s.takeEvent.slots = s.slots := rfl
@[simp] theorem State.takeEvent_delay : s.takeEvent.delay = s.delay := rfl
@[simp] theorem State.takeEvent_emitter : s.takeEvent.emitter = s.emitter := rfl
@[simp] theorem State.takeEvent_clips : s.takeEvent.clips = s.clips := rfl
@[simp] theorem State.takeEvent_channels : s.takeEvent.channels = s.channels := rfl
@[simp] theorem State.takeEvent_splice : s.takeEvent.splice = s.splice := rfl
@[simp] theorem State.takeEvent_counters : s.takeEvent.counters = s.counters := rfl
@[simp] theorem State.takeEvent_alarms : s.takeEvent.alarms = s.alarms := rfl
@[simp] theorem State.takeEvent_runner : s.takeEvent.runner = s.runner := rfl
@[simp] theorem State.takeEvent_engine : s.takeEvent.engine = s.engine := rfl
@[simp] theorem State.takeEvent_out : s.takeEvent.out = s.out := rfl
@[simp] theorem State.takeEvent_faultCount : s.takeEvent.faultCount = s.faultCount := rfl
@[simp] theorem State.takeEvent_openingTaken : s.takeEvent.openingTaken = s.openingTaken := rfl
@[simp] theorem State.takeEvent_eventDue : s.takeEvent.eventDue = false := rfl

/-! ### wrapCount -/

@[simp] theorem State.wrapCount_pending : s.wrapCount.pending = s.pending := rfl
@[simp] theorem State.wrapCount_pins : s.wrapCount.pins = s.pins := rfl
@[simp] theorem State.wrapCount_time : s.wrapCount.time = s.time.wrapped := rfl
@[simp] theorem State.wrapCount_portA : s.wrapCount.portA = s.portA.later := rfl
@[simp] theorem State.wrapCount_portB : s.wrapCount.portB = s.portB.later := rfl
@[simp] theorem State.wrapCount_feeds : s.wrapCount.feeds = s.feeds := rfl
@[simp] theorem State.wrapCount_slots : s.wrapCount.slots = s.slots := rfl
@[simp] theorem State.wrapCount_delay : s.wrapCount.delay = s.delay := rfl
@[simp] theorem State.wrapCount_emitter : s.wrapCount.emitter = s.emitter := rfl
@[simp] theorem State.wrapCount_clips : s.wrapCount.clips = s.clips := rfl
@[simp] theorem State.wrapCount_channels : s.wrapCount.channels = s.channels := rfl
@[simp] theorem State.wrapCount_splice : s.wrapCount.splice = s.splice := rfl
@[simp] theorem State.wrapCount_counters : s.wrapCount.counters = s.counters := rfl
@[simp] theorem State.wrapCount_alarms : s.wrapCount.alarms = s.alarms := rfl
@[simp] theorem State.wrapCount_runner : s.wrapCount.runner = s.runner := rfl
@[simp] theorem State.wrapCount_engine : s.wrapCount.engine = s.engine := rfl
@[simp] theorem State.wrapCount_out : s.wrapCount.out = s.out := rfl
@[simp] theorem State.wrapCount_faultCount : s.wrapCount.faultCount = s.faultCount := rfl
@[simp] theorem State.wrapCount_openingTaken : s.wrapCount.openingTaken = false := rfl
@[simp] theorem State.wrapCount_eventDue : s.wrapCount.eventDue = true := rfl
@[simp] theorem State.wrapCount_port (f : Feed) : s.wrapCount.port f = (s.port f).later := by cases f <;> rfl
@[simp] theorem State.laterPorts_portB : s.laterPorts.portB = s.portB.later := rfl
@[simp] theorem State.laterPorts_feeds : s.laterPorts.feeds = s.feeds := rfl
@[simp] theorem State.laterPorts_slots : s.laterPorts.slots = s.slots := rfl
@[simp] theorem State.laterPorts_delay : s.laterPorts.delay = s.delay := rfl
@[simp] theorem State.laterPorts_emitter : s.laterPorts.emitter = s.emitter := rfl
@[simp] theorem State.laterPorts_clips : s.laterPorts.clips = s.clips := rfl
@[simp] theorem State.laterPorts_channels : s.laterPorts.channels = s.channels := rfl
@[simp] theorem State.laterPorts_splice : s.laterPorts.splice = s.splice := rfl
@[simp] theorem State.laterPorts_counters : s.laterPorts.counters = s.counters := rfl
@[simp] theorem State.laterPorts_alarms : s.laterPorts.alarms = s.alarms := rfl
@[simp] theorem State.laterPorts_runner : s.laterPorts.runner = s.runner := rfl
@[simp] theorem State.laterPorts_engine : s.laterPorts.engine = s.engine := rfl
@[simp] theorem State.laterPorts_out : s.laterPorts.out = s.out := rfl
@[simp] theorem State.laterPorts_faultCount : s.laterPorts.faultCount = s.faultCount := rfl
@[simp] theorem State.laterPorts_openingTaken : s.laterPorts.openingTaken = s.openingTaken := rfl
@[simp] theorem State.laterPorts_eventDue : s.laterPorts.eventDue = s.eventDue := rfl
@[simp] theorem State.laterPorts_port (f : Feed) : s.laterPorts.port f = (s.port f).later := by cases f <;> rfl

/-! ### A port's note (R48) -/

@[simp] theorem FeedPort.later_state (p : FeedPort) : p.later.state = p.state := rfl
@[simp] theorem FeedPort.later_silenceLatch (p : FeedPort) : p.later.silenceLatch = p.silenceLatch := rfl
@[simp] theorem FeedPort.later_silence (p : FeedPort) : p.later.silence = p.silence := rfl
@[simp] theorem FeedPort.later_current (p : FeedPort) : p.later.current = p.current := rfl
@[simp] theorem FeedPort.later_expected (p : FeedPort) : p.later.expected = p.expected := rfl
@[simp] theorem FeedPort.later_received (p : FeedPort) : p.later.received = p.received := rfl
@[simp] theorem FeedPort.later_blockCheck (p : FeedPort) : p.later.blockCheck = p.blockCheck := rfl
@[simp] theorem FeedPort.later_runningCheck (p : FeedPort) : p.later.runningCheck = p.runningCheck := rfl
@[simp] theorem FeedPort.later_counts (p : FeedPort) : p.later.counts = p.counts := rfl
@[simp] theorem FeedPort.later_forestalled (p : FeedPort) : p.later.forestalled = false := rfl
@[simp] theorem FeedPort.tracked_silenceLatch (p : FeedPort) : p.tracked.silenceLatch = p.silenceLatch := rfl
@[simp] theorem FeedPort.tracked_current (p : FeedPort) : p.tracked.current = p.current := rfl
@[simp] theorem FeedPort.tracked_expected (p : FeedPort) : p.tracked.expected = p.expected := rfl
@[simp] theorem FeedPort.tracked_received (p : FeedPort) : p.tracked.received = p.received := rfl
@[simp] theorem FeedPort.tracked_blockCheck (p : FeedPort) : p.tracked.blockCheck = p.blockCheck := rfl
@[simp] theorem FeedPort.tracked_runningCheck (p : FeedPort) : p.tracked.runningCheck = p.runningCheck := rfl
@[simp] theorem FeedPort.tracked_counts (p : FeedPort) : p.tracked.counts = p.counts := rfl
@[simp] theorem FeedPort.tracked_state (p : FeedPort) : p.tracked.state = .tracking := rfl
@[simp] theorem FeedPort.tracked_silence (p : FeedPort) : p.tracked.silence = p.silenceLatch := rfl
@[simp] theorem FeedPort.tracked_forestalled (p : FeedPort) : p.tracked.forestalled = p.forestalls := rfl

/-! ### setEdges -/

@[simp] theorem State.setEdges_pending (b : Bool) : (s.setEdges b).pending = s.pending := rfl
@[simp] theorem State.setEdges_pins (b : Bool) : (s.setEdges b).pins = { s.pins with refEdges := b } := rfl
@[simp] theorem State.setEdges_time (b : Bool) : (s.setEdges b).time = s.time := rfl
@[simp] theorem State.setEdges_portA (b : Bool) : (s.setEdges b).portA = s.portA := rfl
@[simp] theorem State.setEdges_portB (b : Bool) : (s.setEdges b).portB = s.portB := rfl
@[simp] theorem State.setEdges_feeds (b : Bool) : (s.setEdges b).feeds = s.feeds := rfl
@[simp] theorem State.setEdges_slots (b : Bool) : (s.setEdges b).slots = s.slots := rfl
@[simp] theorem State.setEdges_delay (b : Bool) : (s.setEdges b).delay = s.delay := rfl
@[simp] theorem State.setEdges_emitter (b : Bool) : (s.setEdges b).emitter = s.emitter := rfl
@[simp] theorem State.setEdges_clips (b : Bool) : (s.setEdges b).clips = s.clips := rfl
@[simp] theorem State.setEdges_channels (b : Bool) : (s.setEdges b).channels = s.channels := rfl
@[simp] theorem State.setEdges_splice (b : Bool) : (s.setEdges b).splice = s.splice := rfl
@[simp] theorem State.setEdges_counters (b : Bool) : (s.setEdges b).counters = s.counters := rfl
@[simp] theorem State.setEdges_alarms (b : Bool) : (s.setEdges b).alarms = s.alarms := rfl
@[simp] theorem State.setEdges_runner (b : Bool) : (s.setEdges b).runner = s.runner := rfl
@[simp] theorem State.setEdges_engine (b : Bool) : (s.setEdges b).engine = s.engine := rfl
@[simp] theorem State.setEdges_out (b : Bool) : (s.setEdges b).out = s.out := rfl
@[simp] theorem State.setEdges_faultCount (b : Bool) : (s.setEdges b).faultCount = s.faultCount := rfl
@[simp] theorem State.setEdges_openingTaken (b : Bool) : (s.setEdges b).openingTaken = s.openingTaken := rfl
@[simp] theorem State.setEdges_eventDue (b : Bool) : (s.setEdges b).eventDue = s.eventDue := rfl

/-! ### flush -/

@[simp] theorem State.flush_pending (n : Fin 9) : (s.flush n).pending = s.pending := rfl
@[simp] theorem State.flush_pins (n : Fin 9) : (s.flush n).pins = s.pins := rfl
@[simp] theorem State.flush_time (n : Fin 9) : (s.flush n).time = s.time := rfl
@[simp] theorem State.flush_portA (n : Fin 9) : (s.flush n).portA = s.portA := rfl
@[simp] theorem State.flush_portB (n : Fin 9) : (s.flush n).portB = s.portB := rfl
@[simp] theorem State.flush_feeds (n : Fin 9) : (s.flush n).feeds = s.feeds := rfl
@[simp] theorem State.flush_slots (n : Fin 9) : (s.flush n).slots = s.slots := rfl
@[simp] theorem State.flush_delay (n : Fin 9) : (s.flush n).delay = s.delay := rfl
@[simp] theorem State.flush_emitter (n : Fin 9) : (s.flush n).emitter = s.emitter := rfl
@[simp] theorem State.flush_clips (n : Fin 9) : (s.flush n).clips = s.clips := rfl
@[simp] theorem State.flush_channels (n : Fin 9) :
    (s.flush n).channels = s.channels.set n (s.channel n).flushed := rfl
@[simp] theorem State.flush_splice (n : Fin 9) : (s.flush n).splice = s.splice := rfl
@[simp] theorem State.flush_counters (n : Fin 9) : (s.flush n).counters = s.counters := rfl
@[simp] theorem State.flush_alarms (n : Fin 9) : (s.flush n).alarms = s.alarms := rfl
@[simp] theorem State.flush_runner (n : Fin 9) : (s.flush n).runner = s.runner := rfl
@[simp] theorem State.flush_engine (n : Fin 9) : (s.flush n).engine = s.engine := rfl
@[simp] theorem State.flush_out (n : Fin 9) : (s.flush n).out = s.out := rfl
@[simp] theorem State.flush_faultCount (n : Fin 9) : (s.flush n).faultCount = s.faultCount := rfl
@[simp] theorem State.flush_openingTaken (n : Fin 9) : (s.flush n).openingTaken = s.openingTaken := rfl
@[simp] theorem State.flush_eventDue (n : Fin 9) : (s.flush n).eventDue = s.eventDue := rfl

/-! ### setDepth -/

@[simp] theorem State.setDepth_pending (n : Fin 9) (d r : Nat) : (s.setDepth n d r).pending = s.pending := rfl
@[simp] theorem State.setDepth_pins (n : Fin 9) (d r : Nat) : (s.setDepth n d r).pins = s.pins := rfl
@[simp] theorem State.setDepth_time (n : Fin 9) (d r : Nat) : (s.setDepth n d r).time = s.time := rfl
@[simp] theorem State.setDepth_portA (n : Fin 9) (d r : Nat) : (s.setDepth n d r).portA = s.portA := rfl
@[simp] theorem State.setDepth_portB (n : Fin 9) (d r : Nat) : (s.setDepth n d r).portB = s.portB := rfl
@[simp] theorem State.setDepth_feeds (n : Fin 9) (d r : Nat) : (s.setDepth n d r).feeds = s.feeds := rfl
@[simp] theorem State.setDepth_slots (n : Fin 9) (d r : Nat) : (s.setDepth n d r).slots = s.slots := rfl
@[simp] theorem State.setDepth_delay (n : Fin 9) (d r : Nat) : (s.setDepth n d r).delay = s.delay := rfl
@[simp] theorem State.setDepth_emitter (n : Fin 9) (d r : Nat) : (s.setDepth n d r).emitter = s.emitter := rfl
@[simp] theorem State.setDepth_clips (n : Fin 9) (d r : Nat) : (s.setDepth n d r).clips = s.clips := rfl
@[simp] theorem State.setDepth_channels (n : Fin 9) (d r : Nat) :
    (s.setDepth n d r).channels = s.channels.set n { s.channel n with depth := d, refill := r } := rfl
@[simp] theorem State.setDepth_splice (n : Fin 9) (d r : Nat) : (s.setDepth n d r).splice = s.splice := rfl
@[simp] theorem State.setDepth_counters (n : Fin 9) (d r : Nat) : (s.setDepth n d r).counters = s.counters := rfl
@[simp] theorem State.setDepth_alarms (n : Fin 9) (d r : Nat) : (s.setDepth n d r).alarms = s.alarms := rfl
@[simp] theorem State.setDepth_runner (n : Fin 9) (d r : Nat) : (s.setDepth n d r).runner = s.runner := rfl
@[simp] theorem State.setDepth_engine (n : Fin 9) (d r : Nat) : (s.setDepth n d r).engine = s.engine := rfl
@[simp] theorem State.setDepth_out (n : Fin 9) (d r : Nat) : (s.setDepth n d r).out = s.out := rfl
@[simp] theorem State.setDepth_faultCount (n : Fin 9) (d r : Nat) :
    (s.setDepth n d r).faultCount = s.faultCount := rfl
@[simp] theorem State.setDepth_openingTaken (n : Fin 9) (d r : Nat) :
    (s.setDepth n d r).openingTaken = s.openingTaken := rfl
@[simp] theorem State.setDepth_eventDue (n : Fin 9) (d r : Nat) :
    (s.setDepth n d r).eventDue = s.eventDue := rfl

/-! ### haltChannel -/

@[simp] theorem State.haltChannel_pending (n : Fin 9) : (s.haltChannel n).pending = s.pending := rfl
@[simp] theorem State.haltChannel_pins (n : Fin 9) : (s.haltChannel n).pins = s.pins := rfl
@[simp] theorem State.haltChannel_time (n : Fin 9) : (s.haltChannel n).time = s.time := rfl
@[simp] theorem State.haltChannel_portA (n : Fin 9) : (s.haltChannel n).portA = s.portA := rfl
@[simp] theorem State.haltChannel_portB (n : Fin 9) : (s.haltChannel n).portB = s.portB := rfl
@[simp] theorem State.haltChannel_feeds (n : Fin 9) : (s.haltChannel n).feeds = s.feeds := rfl
@[simp] theorem State.haltChannel_slots (n : Fin 9) : (s.haltChannel n).slots = s.slots := rfl
@[simp] theorem State.haltChannel_delay (n : Fin 9) : (s.haltChannel n).delay = s.delay := rfl
@[simp] theorem State.haltChannel_emitter (n : Fin 9) : (s.haltChannel n).emitter = s.emitter := rfl
@[simp] theorem State.haltChannel_clips (n : Fin 9) : (s.haltChannel n).clips = s.clips := rfl
@[simp] theorem State.haltChannel_channels (n : Fin 9) :
    (s.haltChannel n).channels = s.channels.set n { s.channel n with halted := true, inFlight := false, inFlightCount := 0 } := rfl
@[simp] theorem State.haltChannel_splice (n : Fin 9) : (s.haltChannel n).splice = s.splice := rfl
@[simp] theorem State.haltChannel_counters (n : Fin 9) : (s.haltChannel n).counters = s.counters := rfl
@[simp] theorem State.haltChannel_alarms (n : Fin 9) : (s.haltChannel n).alarms = s.alarms := rfl
@[simp] theorem State.haltChannel_runner (n : Fin 9) : (s.haltChannel n).runner = s.runner := rfl
@[simp] theorem State.haltChannel_engine (n : Fin 9) : (s.haltChannel n).engine = s.engine := rfl
@[simp] theorem State.haltChannel_out (n : Fin 9) : (s.haltChannel n).out = s.out := rfl
@[simp] theorem State.haltChannel_faultCount (n : Fin 9) : (s.haltChannel n).faultCount = s.faultCount := rfl
@[simp] theorem State.haltChannel_openingTaken (n : Fin 9) : (s.haltChannel n).openingTaken = s.openingTaken := rfl
@[simp] theorem State.haltChannel_eventDue (n : Fin 9) : (s.haltChannel n).eventDue = s.eventDue := rfl

/-! ### setDescriptor -/

@[simp] theorem State.setDescriptor_pending (n : Fin 16) (x : ListDescriptor) :
    (s.setDescriptor n x).pending = s.pending := rfl
@[simp] theorem State.setDescriptor_pins (n : Fin 16) (x : ListDescriptor) :
    (s.setDescriptor n x).pins = s.pins := rfl
@[simp] theorem State.setDescriptor_time (n : Fin 16) (x : ListDescriptor) :
    (s.setDescriptor n x).time = s.time := rfl
@[simp] theorem State.setDescriptor_portA (n : Fin 16) (x : ListDescriptor) :
    (s.setDescriptor n x).portA = s.portA := rfl
@[simp] theorem State.setDescriptor_portB (n : Fin 16) (x : ListDescriptor) :
    (s.setDescriptor n x).portB = s.portB := rfl
@[simp] theorem State.setDescriptor_feeds (n : Fin 16) (x : ListDescriptor) :
    (s.setDescriptor n x).feeds = s.feeds := rfl
@[simp] theorem State.setDescriptor_slots (n : Fin 16) (x : ListDescriptor) :
    (s.setDescriptor n x).slots = s.slots := rfl
@[simp] theorem State.setDescriptor_delay (n : Fin 16) (x : ListDescriptor) :
    (s.setDescriptor n x).delay = s.delay := rfl
@[simp] theorem State.setDescriptor_emitter (n : Fin 16) (x : ListDescriptor) :
    (s.setDescriptor n x).emitter = s.emitter := rfl
@[simp] theorem State.setDescriptor_clips (n : Fin 16) (x : ListDescriptor) :
    (s.setDescriptor n x).clips = s.clips := rfl
@[simp] theorem State.setDescriptor_channels (n : Fin 16) (x : ListDescriptor) :
    (s.setDescriptor n x).channels = s.channels := rfl
@[simp] theorem State.setDescriptor_splice (n : Fin 16) (x : ListDescriptor) :
    (s.setDescriptor n x).splice = s.splice := rfl
@[simp] theorem State.setDescriptor_counters (n : Fin 16) (x : ListDescriptor) :
    (s.setDescriptor n x).counters = s.counters := rfl
@[simp] theorem State.setDescriptor_alarms (n : Fin 16) (x : ListDescriptor) :
    (s.setDescriptor n x).alarms = s.alarms := rfl
@[simp] theorem State.setDescriptor_runner (n : Fin 16) (x : ListDescriptor) :
    (s.setDescriptor n x).runner = { s.runner with descriptors := s.runner.descriptors.set n x } := rfl
@[simp] theorem State.setDescriptor_engine (n : Fin 16) (x : ListDescriptor) :
    (s.setDescriptor n x).engine = s.engine := rfl
@[simp] theorem State.setDescriptor_out (n : Fin 16) (x : ListDescriptor) : (s.setDescriptor n x).out = s.out := rfl
@[simp] theorem State.setDescriptor_faultCount (n : Fin 16) (x : ListDescriptor) :
    (s.setDescriptor n x).faultCount = s.faultCount := rfl
@[simp] theorem State.setDescriptor_openingTaken (n : Fin 16) (x : ListDescriptor) :
    (s.setDescriptor n x).openingTaken = s.openingTaken := rfl
@[simp] theorem State.setDescriptor_eventDue (n : Fin 16) (x : ListDescriptor) :
    (s.setDescriptor n x).eventDue = s.eventDue := rfl

/-! ### setPort -/

@[simp] theorem State.setPort_pending (f : Feed) (p : FeedPort) : (s.setPort f p).pending = s.pending := by cases f <;> rfl
@[simp] theorem State.setPort_pins (f : Feed) (p : FeedPort) : (s.setPort f p).pins = s.pins := by cases f <;> rfl
@[simp] theorem State.setPort_time (f : Feed) (p : FeedPort) : (s.setPort f p).time = s.time := by cases f <;> rfl
@[simp] theorem State.setPort_feeds (f : Feed) (p : FeedPort) : (s.setPort f p).feeds = s.feeds := by cases f <;> rfl
@[simp] theorem State.setPort_slots (f : Feed) (p : FeedPort) : (s.setPort f p).slots = s.slots := by cases f <;> rfl
@[simp] theorem State.setPort_delay (f : Feed) (p : FeedPort) : (s.setPort f p).delay = s.delay := by cases f <;> rfl
@[simp] theorem State.setPort_emitter (f : Feed) (p : FeedPort) : (s.setPort f p).emitter = s.emitter := by cases f <;> rfl
@[simp] theorem State.setPort_clips (f : Feed) (p : FeedPort) : (s.setPort f p).clips = s.clips := by cases f <;> rfl
@[simp] theorem State.setPort_channels (f : Feed) (p : FeedPort) : (s.setPort f p).channels = s.channels := by cases f <;> rfl
@[simp] theorem State.setPort_splice (f : Feed) (p : FeedPort) : (s.setPort f p).splice = s.splice := by cases f <;> rfl
@[simp] theorem State.setPort_counters (f : Feed) (p : FeedPort) : (s.setPort f p).counters = s.counters := by cases f <;> rfl
@[simp] theorem State.setPort_alarms (f : Feed) (p : FeedPort) : (s.setPort f p).alarms = s.alarms := by cases f <;> rfl
@[simp] theorem State.setPort_runner (f : Feed) (p : FeedPort) : (s.setPort f p).runner = s.runner := by cases f <;> rfl
@[simp] theorem State.setPort_engine (f : Feed) (p : FeedPort) : (s.setPort f p).engine = s.engine := by cases f <;> rfl
@[simp] theorem State.setPort_out (f : Feed) (p : FeedPort) : (s.setPort f p).out = s.out := by cases f <;> rfl
@[simp] theorem State.setPort_faultCount (f : Feed) (p : FeedPort) : (s.setPort f p).faultCount = s.faultCount := by cases f <;> rfl
@[simp] theorem State.setPort_openingTaken (f : Feed) (p : FeedPort) :
    (s.setPort f p).openingTaken = s.openingTaken := by cases f <;> rfl
@[simp] theorem State.setPort_eventDue (f : Feed) (p : FeedPort) :
    (s.setPort f p).eventDue = s.eventDue := by cases f <;> rfl
@[simp] theorem State.setPort_port (f : Feed) (p : FeedPort) : (s.setPort f p).port f = p := by cases f <;> rfl
@[simp] theorem State.setPort_port_other (f : Feed) (p : FeedPort) :
    (s.setPort f p).port (otherFeed f) = s.port (otherFeed f) := by cases f <;> rfl

/-! ### countFeed -/

@[simp] theorem State.countFeed_pending (f : Feed) (k : FeedCounts → FeedCounts) : (s.countFeed f k).pending = s.pending :=
  State.setPort_pending s f _
@[simp] theorem State.countFeed_pins (f : Feed) (k : FeedCounts → FeedCounts) : (s.countFeed f k).pins = s.pins :=
  State.setPort_pins s f _
@[simp] theorem State.countFeed_time (f : Feed) (k : FeedCounts → FeedCounts) : (s.countFeed f k).time = s.time :=
  State.setPort_time s f _
@[simp] theorem State.countFeed_feeds (f : Feed) (k : FeedCounts → FeedCounts) : (s.countFeed f k).feeds = s.feeds :=
  State.setPort_feeds s f _
@[simp] theorem State.countFeed_slots (f : Feed) (k : FeedCounts → FeedCounts) : (s.countFeed f k).slots = s.slots :=
  State.setPort_slots s f _
@[simp] theorem State.countFeed_delay (f : Feed) (k : FeedCounts → FeedCounts) : (s.countFeed f k).delay = s.delay :=
  State.setPort_delay s f _
@[simp] theorem State.countFeed_emitter (f : Feed) (k : FeedCounts → FeedCounts) : (s.countFeed f k).emitter = s.emitter :=
  State.setPort_emitter s f _
@[simp] theorem State.countFeed_clips (f : Feed) (k : FeedCounts → FeedCounts) : (s.countFeed f k).clips = s.clips :=
  State.setPort_clips s f _
@[simp] theorem State.countFeed_channels (f : Feed) (k : FeedCounts → FeedCounts) : (s.countFeed f k).channels = s.channels :=
  State.setPort_channels s f _
@[simp] theorem State.countFeed_splice (f : Feed) (k : FeedCounts → FeedCounts) : (s.countFeed f k).splice = s.splice :=
  State.setPort_splice s f _
@[simp] theorem State.countFeed_counters (f : Feed) (k : FeedCounts → FeedCounts) : (s.countFeed f k).counters = s.counters :=
  State.setPort_counters s f _
@[simp] theorem State.countFeed_alarms (f : Feed) (k : FeedCounts → FeedCounts) : (s.countFeed f k).alarms = s.alarms :=
  State.setPort_alarms s f _
@[simp] theorem State.countFeed_runner (f : Feed) (k : FeedCounts → FeedCounts) : (s.countFeed f k).runner = s.runner :=
  State.setPort_runner s f _
@[simp] theorem State.countFeed_engine (f : Feed) (k : FeedCounts → FeedCounts) : (s.countFeed f k).engine = s.engine :=
  State.setPort_engine s f _
@[simp] theorem State.countFeed_out (f : Feed) (k : FeedCounts → FeedCounts) : (s.countFeed f k).out = s.out :=
  State.setPort_out s f _
@[simp] theorem State.countFeed_faultCount (f : Feed) (k : FeedCounts → FeedCounts) : (s.countFeed f k).faultCount = s.faultCount :=
  State.setPort_faultCount s f _
@[simp] theorem State.countFeed_openingTaken (f : Feed) (k : FeedCounts → FeedCounts) :
    (s.countFeed f k).openingTaken = s.openingTaken :=
  State.setPort_openingTaken s f _
@[simp] theorem State.countFeed_eventDue (f : Feed) (k : FeedCounts → FeedCounts) :
    (s.countFeed f k).eventDue = s.eventDue :=
  State.setPort_eventDue s f _

end Sys2Proof.Machine
end

