-- ==== Sys2Proof/Laws/Table.lean ====
section
/-! SUPPORT. Laws/Table.lean: reading a table after it is written, filled or mapped. -/

namespace Sys2Proof

variable {α β : Type} {n : Nat}

@[simp] theorem Table.get_set_self (t : Table α n) (i : Fin n) (a : α) : (t.set i a).get i = a := by
  simp [Table.get, Table.set]

@[simp] theorem Table.get_set_ne (t : Table α n) {i j : Fin n} (a : α) (h : i ≠ j) : (t.set i a).get j = t.get j := by
  have : i.val ≠ j.val := fun e => h (Fin.ext e)
  simp [Table.get, Table.set, this]

theorem Table.get_set (t : Table α n) (i j : Fin n) (a : α) :
    (t.set i a).get j = if i = j then a else t.get j := by
  split
  · next h => subst h; exact Table.get_set_self t i a
  · next h => exact Table.get_set_ne t a h

@[simp] theorem Table.get_fill (a : α) (i : Fin n) : (Table.fill n a).get i = a := by simp [Table.get, Table.fill]

@[simp] theorem Table.get_map (f : α → β) (t : Table α n) (i : Fin n) : (t.map f).get i = f (t.get i) := by
  simp [Table.get, Table.map]

/-- A table's entries changed by a function, in index order. -/
theorem Table.items_map (t : Table α n) (f : α → β) :
    t.items.map f = (List.finRange n).map fun i => f (t.get i) := by
  apply List.ext_getElem
  · simp [t.size_eq]
  · intro i h1 h2
    simp [Table.get]

/-- Two tables are equal when their entries are. -/
theorem Table.ext_get (t u : Table α n) (h : ∀ i, t.get i = u.get i) : t = u := by
  obtain ⟨l, hl⟩ := t
  obtain ⟨m, hm⟩ := u
  congr
  apply List.ext_getElem (by omega)
  intro i h1 h2
  exact h ⟨i, by omega⟩

@[simp] theorem Table.set_set (t : Table α n) (i : Fin n) (a b : α) : (t.set i a).set i b = t.set i b := by
  apply Table.ext_get
  intro j
  simp only [Table.get_set]
  split <;> rfl

@[simp] theorem Table.set_get (t : Table α n) (i : Fin n) : t.set i (t.get i) = t := by
  apply Table.ext_get
  intro j
  rw [Table.get_set]
  split
  · next h => rw [h]
  · rfl

end Sys2Proof
end

