-- ==== Sys2Proof/Laws/Frames.lean ====
section
/-! SUPPORT. Laws/Frames.lean: what each shared operation leaves alone, one lemma an operation. -/

namespace Sys2Proof.Machine

/-- A fold keeps what each of its steps keeps. -/
theorem foldl_keeps {α γ : Type} (p : State → γ) (g : State → α → State) (h : ∀ b a, p (g b a) = p b) :
    ∀ (l : List α) (b : State), p (l.foldl g b) = p b := by
  intro l
  induction l with
  | nil => intro b; rfl
  | cons a l ih => intro b; rw [List.foldl_cons, ih, h]

/-- Two states are equal when every field is. -/
theorem State.eq_of_fields {a b : State}
    (h0 : a.pending = b.pending) (h1 : a.pins = b.pins) (h2 : a.time = b.time) (h3 : a.portA = b.portA)
    (h4 : a.portB = b.portB) (h5 : a.feeds = b.feeds) (h6 : a.slots = b.slots) (h7 : a.delay = b.delay)
    (h8 : a.emitter = b.emitter) (h9 : a.clips = b.clips) (h10 : a.channels = b.channels) (h11 : a.splice = b.splice)
    (h12 : a.counters = b.counters) (h13 : a.alarms = b.alarms) (h14 : a.runner = b.runner)
    (h15 : a.engine = b.engine) (h16 : a.out = b.out) (h17 : a.faultCount = b.faultCount)
    (h18 : a.openingTaken = b.openingTaken) (h19 : a.eventDue = b.eventDue) : a = b := by
  cases a
  cases b
  simp_all

/-- R180: a latching changes nothing but the latch and the new set. -/
@[simp] theorem Engine.latch_keeps (g : Engine) (e : Event) :
    (g.latch e).siteId = g.siteId ∧ (g.latch e).groups = g.groups ∧ (g.latch e).intake = g.intake ∧
    (g.latch e).lastSource = g.lastSource ∧ (g.latch e).mask = g.mask ∧ (g.latch e).reports = g.reports ∧
    (g.latch e).droppedFlag = g.droppedFlag ∧ (g.latch e).counts = g.counts := by
  unfold Engine.latch
  split <;> simp

/-- R183: a report changes nothing but the queue, the dropped flag and the counts. -/
@[simp] theorem Engine.queueReport_keeps (g : Engine) (r : Report) :
    (g.queueReport r).siteId = g.siteId ∧ (g.queueReport r).groups = g.groups ∧ (g.queueReport r).intake = g.intake ∧
    (g.queueReport r).lastSource = g.lastSource ∧ (g.queueReport r).latched = g.latched ∧
    (g.queueReport r).mask = g.mask ∧ (g.queueReport r).fresh = g.fresh := by
  unfold Engine.queueReport
  split <;> simp

/-- R182: a second boundary changes nothing but the new set and what its report changes. -/
@[simp] theorem Engine.secondBoundary_keeps (g : Engine) (x : Stamp) :
    (g.secondBoundary x).siteId = g.siteId ∧ (g.secondBoundary x).groups = g.groups ∧
    (g.secondBoundary x).intake = g.intake ∧ (g.secondBoundary x).lastSource = g.lastSource ∧
    (g.secondBoundary x).latched = g.latched ∧ (g.secondBoundary x).mask = g.mask := by
  unfold Engine.secondBoundary
  split <;> simp

variable (s : State)

/-! ### the Event Latch -/

@[simp] theorem State.latchIf_keeps (c : Bool) (e : Event) :
    (s.latchIf c e).pending = s.pending ∧ (s.latchIf c e).pins = s.pins ∧ (s.latchIf c e).time = s.time ∧
    (s.latchIf c e).portA = s.portA ∧ (s.latchIf c e).portB = s.portB ∧ (s.latchIf c e).feeds = s.feeds ∧
    (s.latchIf c e).slots = s.slots ∧ (s.latchIf c e).delay = s.delay ∧ (s.latchIf c e).emitter = s.emitter ∧
    (s.latchIf c e).clips = s.clips ∧ (s.latchIf c e).channels = s.channels ∧ (s.latchIf c e).splice = s.splice ∧
    (s.latchIf c e).counters = s.counters ∧ (s.latchIf c e).alarms = s.alarms ∧ (s.latchIf c e).runner = s.runner ∧
    (s.latchIf c e).out = s.out ∧ (s.latchIf c e).faultCount = s.faultCount ∧
    (s.latchIf c e).openingTaken = s.openingTaken ∧ (s.latchIf c e).eventDue = s.eventDue ∧
    (s.latchIf c e).engine.siteId = s.engine.siteId ∧ (s.latchIf c e).engine.groups = s.engine.groups ∧
    (s.latchIf c e).engine.intake = s.engine.intake ∧ (s.latchIf c e).engine.lastSource = s.engine.lastSource ∧
    (s.latchIf c e).engine.mask = s.engine.mask ∧ (s.latchIf c e).engine.reports = s.engine.reports ∧
    (s.latchIf c e).engine.droppedFlag = s.engine.droppedFlag ∧ (s.latchIf c e).engine.counts = s.engine.counts := by
  unfold State.latchIf
  try dsimp only
  (repeat' split) <;> simp

/-! ### the Label Table -/

@[simp] theorem State.pendService_keeps (n : Fin 8) :
    (s.pendService n).pending = s.pending ∧ (s.pendService n).pins = s.pins ∧ (s.pendService n).time = s.time ∧
    (s.pendService n).portA = s.portA ∧ (s.pendService n).portB = s.portB ∧ (s.pendService n).feeds = s.feeds ∧
    (s.pendService n).slots = s.slots ∧ (s.pendService n).delay = s.delay ∧ (s.pendService n).clips = s.clips ∧
    (s.pendService n).channels = s.channels ∧ (s.pendService n).splice = s.splice ∧
    (s.pendService n).counters = s.counters ∧ (s.pendService n).alarms = s.alarms ∧
    (s.pendService n).runner = s.runner ∧ (s.pendService n).engine = s.engine ∧ (s.pendService n).out = s.out ∧
    (s.pendService n).faultCount = s.faultCount ∧ (s.pendService n).openingTaken = s.openingTaken ∧
    (s.pendService n).eventDue = s.eventDue ∧ (s.pendService n).emitter.state = s.emitter.state ∧
    (s.pendService n).emitter.reasons = s.emitter.reasons ∧ (s.pendService n).emitter.phase = s.emitter.phase ∧
    (s.pendService n).emitter.period = s.emitter.period ∧
    (s.pendService n).emitter.pendingPeriod = s.emitter.pendingPeriod ∧
    (s.pendService n).emitter.current = s.emitter.current ∧
    (s.pendService n).emitter.activeFeed = s.emitter.activeFeed ∧ (s.pendService n).emitter.timer = s.emitter.timer ∧
    (s.pendService n).emitter.counts = s.emitter.counts ∧
    (s.pendService n).emitter.fallbackEnable = s.emitter.fallbackEnable ∧
    (s.pendService n).emitter.fallbackDelay = s.emitter.fallbackDelay ∧
    (s.pendService n).emitter.fallbackClip = s.emitter.fallbackClip ∧
    (s.pendService n).emitter.fallbackMap = s.emitter.fallbackMap := by
  unfold State.pendService
  try dsimp only
  (repeat' split) <;> simp

@[simp] theorem State.pendAll_keeps :
    (s.pendAll).pending = s.pending ∧ (s.pendAll).pins = s.pins ∧ (s.pendAll).time = s.time ∧
    (s.pendAll).portA = s.portA ∧ (s.pendAll).portB = s.portB ∧ (s.pendAll).feeds = s.feeds ∧
    (s.pendAll).slots = s.slots ∧ (s.pendAll).delay = s.delay ∧ (s.pendAll).clips = s.clips ∧
    (s.pendAll).channels = s.channels ∧ (s.pendAll).splice = s.splice ∧ (s.pendAll).counters = s.counters ∧
    (s.pendAll).alarms = s.alarms ∧ (s.pendAll).runner = s.runner ∧ (s.pendAll).engine = s.engine ∧
    (s.pendAll).out = s.out ∧ (s.pendAll).faultCount = s.faultCount ∧ (s.pendAll).openingTaken = s.openingTaken ∧
    (s.pendAll).eventDue = s.eventDue ∧ (s.pendAll).emitter.state = s.emitter.state ∧
    (s.pendAll).emitter.reasons = s.emitter.reasons ∧ (s.pendAll).emitter.phase = s.emitter.phase ∧
    (s.pendAll).emitter.period = s.emitter.period ∧ (s.pendAll).emitter.pendingPeriod = s.emitter.pendingPeriod ∧
    (s.pendAll).emitter.current = s.emitter.current ∧ (s.pendAll).emitter.activeFeed = s.emitter.activeFeed ∧
    (s.pendAll).emitter.timer = s.emitter.timer ∧ (s.pendAll).emitter.counts = s.emitter.counts ∧
    (s.pendAll).emitter.fallbackEnable = s.emitter.fallbackEnable ∧
    (s.pendAll).emitter.fallbackDelay = s.emitter.fallbackDelay ∧
    (s.pendAll).emitter.fallbackClip = s.emitter.fallbackClip ∧
    (s.pendAll).emitter.fallbackMap = s.emitter.fallbackMap := by
  unfold State.pendAll
  try dsimp only
  (repeat' split) <;> simp

@[simp] theorem State.pendLabel_keeps (l : BitVec 11) :
    (s.pendLabel l).pending = s.pending ∧ (s.pendLabel l).pins = s.pins ∧ (s.pendLabel l).time = s.time ∧
    (s.pendLabel l).portA = s.portA ∧ (s.pendLabel l).portB = s.portB ∧ (s.pendLabel l).feeds = s.feeds ∧
    (s.pendLabel l).slots = s.slots ∧ (s.pendLabel l).delay = s.delay ∧ (s.pendLabel l).clips = s.clips ∧
    (s.pendLabel l).channels = s.channels ∧ (s.pendLabel l).splice = s.splice ∧
    (s.pendLabel l).counters = s.counters ∧ (s.pendLabel l).alarms = s.alarms ∧ (s.pendLabel l).runner = s.runner ∧
    (s.pendLabel l).engine = s.engine ∧ (s.pendLabel l).out = s.out ∧ (s.pendLabel l).faultCount = s.faultCount ∧
    (s.pendLabel l).openingTaken = s.openingTaken ∧ (s.pendLabel l).eventDue = s.eventDue ∧
    (s.pendLabel l).emitter.state = s.emitter.state ∧ (s.pendLabel l).emitter.reasons = s.emitter.reasons ∧
    (s.pendLabel l).emitter.phase = s.emitter.phase ∧ (s.pendLabel l).emitter.period = s.emitter.period ∧
    (s.pendLabel l).emitter.pendingPeriod = s.emitter.pendingPeriod ∧
    (s.pendLabel l).emitter.current = s.emitter.current ∧ (s.pendLabel l).emitter.activeFeed = s.emitter.activeFeed ∧
    (s.pendLabel l).emitter.timer = s.emitter.timer ∧ (s.pendLabel l).emitter.counts = s.emitter.counts ∧
    (s.pendLabel l).emitter.fallbackEnable = s.emitter.fallbackEnable ∧
    (s.pendLabel l).emitter.fallbackDelay = s.emitter.fallbackDelay ∧
    (s.pendLabel l).emitter.fallbackClip = s.emitter.fallbackClip ∧
    (s.pendLabel l).emitter.fallbackMap = s.emitter.fallbackMap := by
  unfold State.pendLabel
  try dsimp only
  (repeat' split) <;> simp

@[simp] theorem State.pendMap_keeps (m : LabelMap) :
    (s.pendMap m).pending = s.pending ∧ (s.pendMap m).pins = s.pins ∧ (s.pendMap m).time = s.time ∧
    (s.pendMap m).portA = s.portA ∧ (s.pendMap m).portB = s.portB ∧ (s.pendMap m).feeds = s.feeds ∧
    (s.pendMap m).slots = s.slots ∧ (s.pendMap m).delay = s.delay ∧ (s.pendMap m).clips = s.clips ∧
    (s.pendMap m).channels = s.channels ∧ (s.pendMap m).splice = s.splice ∧ (s.pendMap m).counters = s.counters ∧
    (s.pendMap m).alarms = s.alarms ∧ (s.pendMap m).runner = s.runner ∧ (s.pendMap m).engine = s.engine ∧
    (s.pendMap m).out = s.out ∧ (s.pendMap m).faultCount = s.faultCount ∧
    (s.pendMap m).openingTaken = s.openingTaken ∧ (s.pendMap m).eventDue = s.eventDue ∧
    (s.pendMap m).emitter.state = s.emitter.state ∧ (s.pendMap m).emitter.reasons = s.emitter.reasons ∧
    (s.pendMap m).emitter.phase = s.emitter.phase ∧ (s.pendMap m).emitter.period = s.emitter.period ∧
    (s.pendMap m).emitter.pendingPeriod = s.emitter.pendingPeriod ∧
    (s.pendMap m).emitter.current = s.emitter.current ∧ (s.pendMap m).emitter.activeFeed = s.emitter.activeFeed ∧
    (s.pendMap m).emitter.timer = s.emitter.timer ∧ (s.pendMap m).emitter.counts = s.emitter.counts ∧
    (s.pendMap m).emitter.fallbackEnable = s.emitter.fallbackEnable ∧
    (s.pendMap m).emitter.fallbackDelay = s.emitter.fallbackDelay ∧
    (s.pendMap m).emitter.fallbackClip = s.emitter.fallbackClip ∧
    (s.pendMap m).emitter.fallbackMap = s.emitter.fallbackMap := by
  unfold State.pendMap
  refine ⟨foldl_keeps (·.pending) _ ?_ _ _, foldl_keeps (·.pins) _ ?_ _ _, foldl_keeps (·.time) _ ?_ _ _,
    foldl_keeps (·.portA) _ ?_ _ _, foldl_keeps (·.portB) _ ?_ _ _, foldl_keeps (·.feeds) _ ?_ _ _,
    foldl_keeps (·.slots) _ ?_ _ _, foldl_keeps (·.delay) _ ?_ _ _, foldl_keeps (·.clips) _ ?_ _ _,
    foldl_keeps (·.channels) _ ?_ _ _, foldl_keeps (·.splice) _ ?_ _ _, foldl_keeps (·.counters) _ ?_ _ _,
    foldl_keeps (·.alarms) _ ?_ _ _, foldl_keeps (·.runner) _ ?_ _ _, foldl_keeps (·.engine) _ ?_ _ _,
    foldl_keeps (·.out) _ ?_ _ _, foldl_keeps (·.faultCount) _ ?_ _ _, foldl_keeps (·.openingTaken) _ ?_ _ _, foldl_keeps (·.eventDue) _ ?_ _ _,
    foldl_keeps (·.emitter.state) _ ?_ _ _, foldl_keeps (·.emitter.reasons) _ ?_ _ _,
    foldl_keeps (·.emitter.phase) _ ?_ _ _, foldl_keeps (·.emitter.period) _ ?_ _ _,
    foldl_keeps (·.emitter.pendingPeriod) _ ?_ _ _, foldl_keeps (·.emitter.current) _ ?_ _ _,
    foldl_keeps (·.emitter.activeFeed) _ ?_ _ _, foldl_keeps (·.emitter.timer) _ ?_ _ _,
    foldl_keeps (·.emitter.counts) _ ?_ _ _, foldl_keeps (·.emitter.fallbackEnable) _ ?_ _ _,
    foldl_keeps (·.emitter.fallbackDelay) _ ?_ _ _, foldl_keeps (·.emitter.fallbackClip) _ ?_ _ _,
    foldl_keeps (·.emitter.fallbackMap) _ ?_ _ _⟩ <;>
    · intro b a
      first | (simp; done) | ((try dsimp only); (repeat' split) <;> simp)

@[simp] theorem State.sendPassed_keeps (c : Cell) :
    (s.sendPassed c).pending = s.pending ∧ (s.sendPassed c).pins = s.pins ∧ (s.sendPassed c).time = s.time ∧
    (s.sendPassed c).portA = s.portA ∧ (s.sendPassed c).portB = s.portB ∧ (s.sendPassed c).feeds = s.feeds ∧
    (s.sendPassed c).slots = s.slots ∧ (s.sendPassed c).delay = s.delay ∧ (s.sendPassed c).clips = s.clips ∧
    (s.sendPassed c).channels = s.channels ∧ (s.sendPassed c).splice = s.splice ∧
    (s.sendPassed c).counters = s.counters ∧ (s.sendPassed c).alarms = s.alarms ∧ (s.sendPassed c).runner = s.runner ∧
    (s.sendPassed c).engine = s.engine ∧ (s.sendPassed c).faultCount = s.faultCount ∧
    (s.sendPassed c).openingTaken = s.openingTaken ∧ (s.sendPassed c).eventDue = s.eventDue ∧
    (s.sendPassed c).emitter.state = s.emitter.state ∧ (s.sendPassed c).emitter.reasons = s.emitter.reasons ∧
    (s.sendPassed c).emitter.phase = s.emitter.phase ∧ (s.sendPassed c).emitter.period = s.emitter.period ∧
    (s.sendPassed c).emitter.pendingPeriod = s.emitter.pendingPeriod ∧
    (s.sendPassed c).emitter.current = s.emitter.current ∧
    (s.sendPassed c).emitter.activeFeed = s.emitter.activeFeed ∧ (s.sendPassed c).emitter.timer = s.emitter.timer ∧
    (s.sendPassed c).emitter.counts = s.emitter.counts ∧
    (s.sendPassed c).emitter.fallbackEnable = s.emitter.fallbackEnable ∧
    (s.sendPassed c).emitter.fallbackDelay = s.emitter.fallbackDelay ∧
    (s.sendPassed c).emitter.fallbackClip = s.emitter.fallbackClip ∧
    (s.sendPassed c).emitter.fallbackMap = s.emitter.fallbackMap := by
  unfold State.sendPassed
  try dsimp only
  (repeat' split) <;> simp

@[simp] theorem State.sendClip_keeps (c : Cell) (b : Bool) :
    (s.sendClip c b).pending = s.pending ∧ (s.sendClip c b).pins = s.pins ∧ (s.sendClip c b).time = s.time ∧
    (s.sendClip c b).portA = s.portA ∧ (s.sendClip c b).portB = s.portB ∧ (s.sendClip c b).feeds = s.feeds ∧
    (s.sendClip c b).slots = s.slots ∧ (s.sendClip c b).delay = s.delay ∧ (s.sendClip c b).clips = s.clips ∧
    (s.sendClip c b).channels = s.channels ∧ (s.sendClip c b).splice = s.splice ∧
    (s.sendClip c b).counters = s.counters ∧ (s.sendClip c b).alarms = s.alarms ∧ (s.sendClip c b).runner = s.runner ∧
    (s.sendClip c b).engine = s.engine ∧ (s.sendClip c b).faultCount = s.faultCount ∧
    (s.sendClip c b).openingTaken = s.openingTaken ∧ (s.sendClip c b).eventDue = s.eventDue ∧
    (s.sendClip c b).emitter.state = s.emitter.state ∧ (s.sendClip c b).emitter.reasons = s.emitter.reasons ∧
    (s.sendClip c b).emitter.phase = s.emitter.phase ∧ (s.sendClip c b).emitter.period = s.emitter.period ∧
    (s.sendClip c b).emitter.pendingPeriod = s.emitter.pendingPeriod ∧
    (s.sendClip c b).emitter.current = s.emitter.current ∧
    (s.sendClip c b).emitter.activeFeed = s.emitter.activeFeed ∧ (s.sendClip c b).emitter.timer = s.emitter.timer ∧
    (s.sendClip c b).emitter.counts = s.emitter.counts ∧
    (s.sendClip c b).emitter.fallbackEnable = s.emitter.fallbackEnable ∧
    (s.sendClip c b).emitter.fallbackDelay = s.emitter.fallbackDelay ∧
    (s.sendClip c b).emitter.fallbackClip = s.emitter.fallbackClip ∧
    (s.sendClip c b).emitter.fallbackMap = s.emitter.fallbackMap := by
  unfold State.sendClip
  try dsimp only
  (repeat' split) <;> simp

@[simp] theorem State.sendQueued_keeps (c : Cell) (b : Bool) :
    (s.sendQueued c b).pending = s.pending ∧ (s.sendQueued c b).pins = s.pins ∧ (s.sendQueued c b).time = s.time ∧
    (s.sendQueued c b).portA = s.portA ∧ (s.sendQueued c b).portB = s.portB ∧ (s.sendQueued c b).feeds = s.feeds ∧
    (s.sendQueued c b).slots = s.slots ∧ (s.sendQueued c b).delay = s.delay ∧ (s.sendQueued c b).clips = s.clips ∧
    (s.sendQueued c b).channels = s.channels ∧ (s.sendQueued c b).splice = s.splice ∧
    (s.sendQueued c b).counters = s.counters ∧ (s.sendQueued c b).alarms = s.alarms ∧
    (s.sendQueued c b).runner = s.runner ∧ (s.sendQueued c b).engine = s.engine ∧
    (s.sendQueued c b).faultCount = s.faultCount ∧ (s.sendQueued c b).openingTaken = s.openingTaken ∧
    (s.sendQueued c b).eventDue = s.eventDue ∧ (s.sendQueued c b).emitter.state = s.emitter.state ∧
    (s.sendQueued c b).emitter.reasons = s.emitter.reasons ∧ (s.sendQueued c b).emitter.phase = s.emitter.phase ∧
    (s.sendQueued c b).emitter.period = s.emitter.period ∧
    (s.sendQueued c b).emitter.pendingPeriod = s.emitter.pendingPeriod ∧
    (s.sendQueued c b).emitter.current = s.emitter.current ∧
    (s.sendQueued c b).emitter.activeFeed = s.emitter.activeFeed ∧
    (s.sendQueued c b).emitter.timer = s.emitter.timer ∧ (s.sendQueued c b).emitter.counts = s.emitter.counts ∧
    (s.sendQueued c b).emitter.fallbackEnable = s.emitter.fallbackEnable ∧
    (s.sendQueued c b).emitter.fallbackDelay = s.emitter.fallbackDelay ∧
    (s.sendQueued c b).emitter.fallbackClip = s.emitter.fallbackClip ∧
    (s.sendQueued c b).emitter.fallbackMap = s.emitter.fallbackMap := by
  unfold State.sendQueued
  try dsimp only
  (repeat' split) <;> simp

/-! ### clips and use counts -/

@[simp] theorem State.addUse_keeps (n : Fin 128) :
    (s.addUse n).pending = s.pending ∧ (s.addUse n).pins = s.pins ∧ (s.addUse n).time = s.time ∧
    (s.addUse n).portA = s.portA ∧ (s.addUse n).portB = s.portB ∧ (s.addUse n).feeds = s.feeds ∧
    (s.addUse n).slots = s.slots ∧ (s.addUse n).delay = s.delay ∧ (s.addUse n).emitter = s.emitter ∧
    (s.addUse n).channels = s.channels ∧ (s.addUse n).splice = s.splice ∧ (s.addUse n).counters = s.counters ∧
    (s.addUse n).alarms = s.alarms ∧ (s.addUse n).runner = s.runner ∧ (s.addUse n).engine = s.engine ∧
    (s.addUse n).out = s.out ∧ (s.addUse n).faultCount = s.faultCount ∧ (s.addUse n).openingTaken = s.openingTaken ∧
    (s.addUse n).eventDue = s.eventDue ∧ (s.addUse n).clips.pages = s.clips.pages ∧
    (s.addUse n).clips.intake = s.clips.intake ∧ (s.addUse n).clips.reads = s.clips.reads ∧
    (s.addUse n).clips.record = s.clips.record ∧ (s.addUse n).clips.counts = s.clips.counts := by
  unfold State.addUse
  try dsimp only
  (repeat' split) <;> simp

@[simp] theorem State.dropUse_keeps (n : Fin 128) :
    (s.dropUse n).pending = s.pending ∧ (s.dropUse n).pins = s.pins ∧ (s.dropUse n).time = s.time ∧
    (s.dropUse n).portA = s.portA ∧ (s.dropUse n).portB = s.portB ∧ (s.dropUse n).feeds = s.feeds ∧
    (s.dropUse n).slots = s.slots ∧ (s.dropUse n).delay = s.delay ∧ (s.dropUse n).emitter = s.emitter ∧
    (s.dropUse n).channels = s.channels ∧ (s.dropUse n).splice = s.splice ∧ (s.dropUse n).counters = s.counters ∧
    (s.dropUse n).alarms = s.alarms ∧ (s.dropUse n).runner = s.runner ∧ (s.dropUse n).engine = s.engine ∧
    (s.dropUse n).out = s.out ∧ (s.dropUse n).faultCount = s.faultCount ∧
    (s.dropUse n).openingTaken = s.openingTaken ∧ (s.dropUse n).eventDue = s.eventDue ∧
    (s.dropUse n).clips.pages = s.clips.pages ∧ (s.dropUse n).clips.intake = s.clips.intake ∧
    (s.dropUse n).clips.reads = s.clips.reads ∧ (s.dropUse n).clips.record = s.clips.record ∧
    (s.dropUse n).clips.counts = s.clips.counts := by
  unfold State.dropUse
  try dsimp only
  (repeat' split) <;> simp

@[simp] theorem State.releaseList_keeps (l : List (Fin 128)) :
    (s.releaseList l).pending = s.pending ∧ (s.releaseList l).pins = s.pins ∧ (s.releaseList l).time = s.time ∧
    (s.releaseList l).portA = s.portA ∧ (s.releaseList l).portB = s.portB ∧ (s.releaseList l).feeds = s.feeds ∧
    (s.releaseList l).slots = s.slots ∧ (s.releaseList l).delay = s.delay ∧ (s.releaseList l).emitter = s.emitter ∧
    (s.releaseList l).channels = s.channels ∧ (s.releaseList l).splice = s.splice ∧
    (s.releaseList l).counters = s.counters ∧ (s.releaseList l).alarms = s.alarms ∧
    (s.releaseList l).runner = s.runner ∧ (s.releaseList l).engine = s.engine ∧ (s.releaseList l).out = s.out ∧
    (s.releaseList l).faultCount = s.faultCount ∧ (s.releaseList l).openingTaken = s.openingTaken ∧
    (s.releaseList l).eventDue = s.eventDue ∧ (s.releaseList l).clips.pages = s.clips.pages ∧
    (s.releaseList l).clips.intake = s.clips.intake ∧ (s.releaseList l).clips.reads = s.clips.reads ∧
    (s.releaseList l).clips.record = s.clips.record ∧ (s.releaseList l).clips.counts = s.clips.counts := by
  unfold State.releaseList
  refine ⟨foldl_keeps (·.pending) _ ?_ _ _, foldl_keeps (·.pins) _ ?_ _ _, foldl_keeps (·.time) _ ?_ _ _,
    foldl_keeps (·.portA) _ ?_ _ _, foldl_keeps (·.portB) _ ?_ _ _, foldl_keeps (·.feeds) _ ?_ _ _,
    foldl_keeps (·.slots) _ ?_ _ _, foldl_keeps (·.delay) _ ?_ _ _, foldl_keeps (·.emitter) _ ?_ _ _,
    foldl_keeps (·.channels) _ ?_ _ _, foldl_keeps (·.splice) _ ?_ _ _, foldl_keeps (·.counters) _ ?_ _ _,
    foldl_keeps (·.alarms) _ ?_ _ _, foldl_keeps (·.runner) _ ?_ _ _, foldl_keeps (·.engine) _ ?_ _ _,
    foldl_keeps (·.out) _ ?_ _ _, foldl_keeps (·.faultCount) _ ?_ _ _, foldl_keeps (·.openingTaken) _ ?_ _ _, foldl_keeps (·.eventDue) _ ?_ _ _,
    foldl_keeps (·.clips.pages) _ ?_ _ _, foldl_keeps (·.clips.intake) _ ?_ _ _,
    foldl_keeps (·.clips.reads) _ ?_ _ _, foldl_keeps (·.clips.record) _ ?_ _ _,
    foldl_keeps (·.clips.counts) _ ?_ _ _⟩ <;>
    · intro b a
      first | (simp; done) | ((try dsimp only); (repeat' split) <;> simp)

@[simp] theorem State.claimed_keeps (l : List (Fin 128)) :
    (List.foldl State.addUse s l).pending = s.pending ∧ (List.foldl State.addUse s l).pins = s.pins ∧
    (List.foldl State.addUse s l).time = s.time ∧ (List.foldl State.addUse s l).portA = s.portA ∧
    (List.foldl State.addUse s l).portB = s.portB ∧ (List.foldl State.addUse s l).feeds = s.feeds ∧
    (List.foldl State.addUse s l).slots = s.slots ∧ (List.foldl State.addUse s l).delay = s.delay ∧
    (List.foldl State.addUse s l).emitter = s.emitter ∧ (List.foldl State.addUse s l).channels = s.channels ∧
    (List.foldl State.addUse s l).splice = s.splice ∧ (List.foldl State.addUse s l).counters = s.counters ∧
    (List.foldl State.addUse s l).alarms = s.alarms ∧ (List.foldl State.addUse s l).runner = s.runner ∧
    (List.foldl State.addUse s l).engine = s.engine ∧ (List.foldl State.addUse s l).out = s.out ∧
    (List.foldl State.addUse s l).faultCount = s.faultCount ∧
    (List.foldl State.addUse s l).openingTaken = s.openingTaken ∧
    (List.foldl State.addUse s l).eventDue = s.eventDue ∧ (List.foldl State.addUse s l).clips.pages = s.clips.pages ∧
    (List.foldl State.addUse s l).clips.intake = s.clips.intake ∧
    (List.foldl State.addUse s l).clips.reads = s.clips.reads ∧
    (List.foldl State.addUse s l).clips.record = s.clips.record ∧
    (List.foldl State.addUse s l).clips.counts = s.clips.counts := by
  refine ⟨foldl_keeps (·.pending) _ ?_ _ _, foldl_keeps (·.pins) _ ?_ _ _, foldl_keeps (·.time) _ ?_ _ _,
    foldl_keeps (·.portA) _ ?_ _ _, foldl_keeps (·.portB) _ ?_ _ _, foldl_keeps (·.feeds) _ ?_ _ _,
    foldl_keeps (·.slots) _ ?_ _ _, foldl_keeps (·.delay) _ ?_ _ _, foldl_keeps (·.emitter) _ ?_ _ _,
    foldl_keeps (·.channels) _ ?_ _ _, foldl_keeps (·.splice) _ ?_ _ _, foldl_keeps (·.counters) _ ?_ _ _,
    foldl_keeps (·.alarms) _ ?_ _ _, foldl_keeps (·.runner) _ ?_ _ _, foldl_keeps (·.engine) _ ?_ _ _,
    foldl_keeps (·.out) _ ?_ _ _, foldl_keeps (·.faultCount) _ ?_ _ _, foldl_keeps (·.openingTaken) _ ?_ _ _, foldl_keeps (·.eventDue) _ ?_ _ _,
    foldl_keeps (·.clips.pages) _ ?_ _ _, foldl_keeps (·.clips.intake) _ ?_ _ _,
    foldl_keeps (·.clips.reads) _ ?_ _ _, foldl_keeps (·.clips.record) _ ?_ _ _,
    foldl_keeps (·.clips.counts) _ ?_ _ _⟩ <;>
    · intro b a
      first | (simp; done) | ((try dsimp only); (repeat' split) <;> simp)

@[simp] theorem State.designate_keeps (c : Option (Fin 128)) :
    (s.designate c).pending = s.pending ∧ (s.designate c).pins = s.pins ∧ (s.designate c).time = s.time ∧
    (s.designate c).portA = s.portA ∧ (s.designate c).portB = s.portB ∧ (s.designate c).feeds = s.feeds ∧
    (s.designate c).slots = s.slots ∧ (s.designate c).delay = s.delay ∧ (s.designate c).emitter = s.emitter ∧
    (s.designate c).channels = s.channels ∧ (s.designate c).splice = s.splice ∧
    (s.designate c).counters = s.counters ∧ (s.designate c).alarms = s.alarms ∧ (s.designate c).runner = s.runner ∧
    (s.designate c).engine = s.engine ∧ (s.designate c).out = s.out ∧ (s.designate c).faultCount = s.faultCount ∧
    (s.designate c).openingTaken = s.openingTaken ∧ (s.designate c).eventDue = s.eventDue ∧
    (s.designate c).clips.pages = s.clips.pages ∧ (s.designate c).clips.intake = s.clips.intake ∧
    (s.designate c).clips.reads = s.clips.reads ∧ (s.designate c).clips.record = s.clips.record ∧
    (s.designate c).clips.counts = s.clips.counts := by
  unfold State.designate
  try dsimp only
  (repeat' split) <;> simp

@[simp] theorem State.enterFault_keeps (r : FaultReason) (a : FaultAccess) (n : Fin 128) (i : Nat) (c : Option (Fin 9)) :
    (s.enterFault r a n i c).pending = s.pending ∧ (s.enterFault r a n i c).pins = s.pins ∧
    (s.enterFault r a n i c).time = s.time ∧ (s.enterFault r a n i c).portA = s.portA ∧
    (s.enterFault r a n i c).portB = s.portB ∧ (s.enterFault r a n i c).feeds = s.feeds ∧
    (s.enterFault r a n i c).slots = s.slots ∧ (s.enterFault r a n i c).delay = s.delay ∧
    (s.enterFault r a n i c).emitter = s.emitter ∧ (s.enterFault r a n i c).channels = s.channels ∧
    (s.enterFault r a n i c).splice = s.splice ∧ (s.enterFault r a n i c).counters = s.counters ∧
    (s.enterFault r a n i c).alarms = s.alarms ∧ (s.enterFault r a n i c).runner = s.runner ∧
    (s.enterFault r a n i c).out = s.out ∧ (s.enterFault r a n i c).faultCount = s.faultCount ∧
    (s.enterFault r a n i c).openingTaken = s.openingTaken ∧ (s.enterFault r a n i c).eventDue = s.eventDue ∧
    (s.enterFault r a n i c).clips.entries = s.clips.entries ∧ (s.enterFault r a n i c).clips.pages = s.clips.pages ∧
    (s.enterFault r a n i c).clips.intake = s.clips.intake ∧ (s.enterFault r a n i c).clips.reads = s.clips.reads ∧
    (s.enterFault r a n i c).clips.counts = s.clips.counts ∧
    (s.enterFault r a n i c).engine.siteId = s.engine.siteId ∧
    (s.enterFault r a n i c).engine.groups = s.engine.groups ∧
    (s.enterFault r a n i c).engine.intake = s.engine.intake ∧
    (s.enterFault r a n i c).engine.lastSource = s.engine.lastSource ∧
    (s.enterFault r a n i c).engine.mask = s.engine.mask ∧
    (s.enterFault r a n i c).engine.reports = s.engine.reports ∧
    (s.enterFault r a n i c).engine.droppedFlag = s.engine.droppedFlag ∧
    (s.enterFault r a n i c).engine.counts = s.engine.counts := by
  unfold State.enterFault
  try dsimp only
  (repeat' split) <;> simp

@[simp] theorem completeLoad_keeps (n : Fin 128) :
    (completeLoad s n).pending = s.pending ∧ (completeLoad s n).pins = s.pins ∧ (completeLoad s n).time = s.time ∧
    (completeLoad s n).portA = s.portA ∧ (completeLoad s n).portB = s.portB ∧ (completeLoad s n).feeds = s.feeds ∧
    (completeLoad s n).slots = s.slots ∧ (completeLoad s n).delay = s.delay ∧
    (completeLoad s n).emitter = s.emitter ∧ (completeLoad s n).channels = s.channels ∧
    (completeLoad s n).splice = s.splice ∧ (completeLoad s n).counters = s.counters ∧
    (completeLoad s n).alarms = s.alarms ∧ (completeLoad s n).runner = s.runner ∧ (completeLoad s n).out = s.out ∧
    (completeLoad s n).faultCount = s.faultCount ∧ (completeLoad s n).openingTaken = s.openingTaken ∧
    (completeLoad s n).eventDue = s.eventDue ∧
    (completeLoad s n).clips.pages = s.clips.pages ∧ (completeLoad s n).clips.intake = s.clips.intake ∧
    (completeLoad s n).clips.reads = s.clips.reads ∧ (completeLoad s n).clips.record = s.clips.record ∧
    (completeLoad s n).clips.counts = s.clips.counts ∧ (completeLoad s n).engine.siteId = s.engine.siteId ∧
    (completeLoad s n).engine.groups = s.engine.groups ∧ (completeLoad s n).engine.intake = s.engine.intake ∧
    (completeLoad s n).engine.lastSource = s.engine.lastSource ∧ (completeLoad s n).engine.mask = s.engine.mask ∧
    (completeLoad s n).engine.reports = s.engine.reports ∧
    (completeLoad s n).engine.droppedFlag = s.engine.droppedFlag ∧
    (completeLoad s n).engine.counts = s.engine.counts := by
  unfold completeLoad
  try dsimp only
  (repeat' split) <;> simp

@[simp] theorem writeSegment_keeps (n : Fin 128) (b : List Byte) :
    (writeSegment s n b).pending = s.pending ∧ (writeSegment s n b).pins = s.pins ∧
    (writeSegment s n b).time = s.time ∧ (writeSegment s n b).portA = s.portA ∧
    (writeSegment s n b).portB = s.portB ∧ (writeSegment s n b).feeds = s.feeds ∧
    (writeSegment s n b).slots = s.slots ∧ (writeSegment s n b).delay = s.delay ∧
    (writeSegment s n b).emitter = s.emitter ∧ (writeSegment s n b).channels = s.channels ∧
    (writeSegment s n b).splice = s.splice ∧ (writeSegment s n b).counters = s.counters ∧
    (writeSegment s n b).alarms = s.alarms ∧ (writeSegment s n b).runner = s.runner ∧
    (writeSegment s n b).out = s.out ∧ (writeSegment s n b).faultCount = s.faultCount ∧
    (writeSegment s n b).openingTaken = s.openingTaken ∧
    (writeSegment s n b).eventDue = s.eventDue ∧ (writeSegment s n b).clips.intake = s.clips.intake ∧
    (writeSegment s n b).clips.reads = s.clips.reads ∧ (writeSegment s n b).clips.record = s.clips.record ∧
    (writeSegment s n b).engine.siteId = s.engine.siteId ∧ (writeSegment s n b).engine.groups = s.engine.groups ∧
    (writeSegment s n b).engine.intake = s.engine.intake ∧
    (writeSegment s n b).engine.lastSource = s.engine.lastSource ∧ (writeSegment s n b).engine.mask = s.engine.mask ∧
    (writeSegment s n b).engine.reports = s.engine.reports ∧
    (writeSegment s n b).engine.droppedFlag = s.engine.droppedFlag ∧
    (writeSegment s n b).engine.counts = s.engine.counts := by
  unfold writeSegment
  try dsimp only
  (repeat' split) <;> simp

@[simp] theorem faultSegment_keeps (n : Fin 128) (b : List Byte) :
    (faultSegment s n b).pending = s.pending ∧ (faultSegment s n b).pins = s.pins ∧
    (faultSegment s n b).time = s.time ∧ (faultSegment s n b).portA = s.portA ∧
    (faultSegment s n b).portB = s.portB ∧ (faultSegment s n b).feeds = s.feeds ∧
    (faultSegment s n b).slots = s.slots ∧ (faultSegment s n b).delay = s.delay ∧
    (faultSegment s n b).emitter = s.emitter ∧ (faultSegment s n b).channels = s.channels ∧
    (faultSegment s n b).splice = s.splice ∧ (faultSegment s n b).counters = s.counters ∧
    (faultSegment s n b).alarms = s.alarms ∧ (faultSegment s n b).runner = s.runner ∧
    (faultSegment s n b).out = s.out ∧ (faultSegment s n b).openingTaken = s.openingTaken ∧
    (faultSegment s n b).eventDue = s.eventDue ∧
    (faultSegment s n b).clips.intake = s.clips.intake ∧ (faultSegment s n b).clips.reads = s.clips.reads ∧
    (faultSegment s n b).engine.siteId = s.engine.siteId ∧ (faultSegment s n b).engine.groups = s.engine.groups ∧
    (faultSegment s n b).engine.intake = s.engine.intake ∧
    (faultSegment s n b).engine.lastSource = s.engine.lastSource ∧ (faultSegment s n b).engine.mask = s.engine.mask ∧
    (faultSegment s n b).engine.reports = s.engine.reports ∧
    (faultSegment s n b).engine.droppedFlag = s.engine.droppedFlag ∧
    (faultSegment s n b).engine.counts = s.engine.counts := by
  unfold faultSegment
  try dsimp only
  (repeat' split) <;> simp

@[simp] theorem loadSegmentInto_keeps (n : Fin 128) (p : Payload) (w : Bool) :
    (loadSegmentInto s n p w).pending = s.pending ∧ (loadSegmentInto s n p w).pins = s.pins ∧
    (loadSegmentInto s n p w).time = s.time ∧ (loadSegmentInto s n p w).portA = s.portA ∧
    (loadSegmentInto s n p w).portB = s.portB ∧ (loadSegmentInto s n p w).feeds = s.feeds ∧
    (loadSegmentInto s n p w).slots = s.slots ∧ (loadSegmentInto s n p w).delay = s.delay ∧
    (loadSegmentInto s n p w).emitter = s.emitter ∧ (loadSegmentInto s n p w).channels = s.channels ∧
    (loadSegmentInto s n p w).splice = s.splice ∧ (loadSegmentInto s n p w).counters = s.counters ∧
    (loadSegmentInto s n p w).alarms = s.alarms ∧ (loadSegmentInto s n p w).runner = s.runner ∧
    (loadSegmentInto s n p w).out = s.out ∧ (loadSegmentInto s n p w).openingTaken = s.openingTaken ∧
    (loadSegmentInto s n p w).eventDue = s.eventDue ∧
    (loadSegmentInto s n p w).clips.intake = s.clips.intake ∧ (loadSegmentInto s n p w).clips.reads = s.clips.reads ∧
    (loadSegmentInto s n p w).engine.siteId = s.engine.siteId ∧
    (loadSegmentInto s n p w).engine.groups = s.engine.groups ∧
    (loadSegmentInto s n p w).engine.intake = s.engine.intake ∧
    (loadSegmentInto s n p w).engine.lastSource = s.engine.lastSource ∧
    (loadSegmentInto s n p w).engine.mask = s.engine.mask ∧
    (loadSegmentInto s n p w).engine.reports = s.engine.reports ∧
    (loadSegmentInto s n p w).engine.droppedFlag = s.engine.droppedFlag ∧
    (loadSegmentInto s n p w).engine.counts = s.engine.counts := by
  unfold loadSegmentInto
  try dsimp only
  (repeat' split) <;> simp

@[simp] theorem takeLoad_keeps (p : Payload) (w : Bool) :
    (takeLoad s p w).pending = s.pending ∧ (takeLoad s p w).pins = s.pins ∧ (takeLoad s p w).time = s.time ∧
    (takeLoad s p w).portA = s.portA ∧ (takeLoad s p w).portB = s.portB ∧ (takeLoad s p w).feeds = s.feeds ∧
    (takeLoad s p w).slots = s.slots ∧ (takeLoad s p w).delay = s.delay ∧ (takeLoad s p w).emitter = s.emitter ∧
    (takeLoad s p w).channels = s.channels ∧ (takeLoad s p w).splice = s.splice ∧
    (takeLoad s p w).counters = s.counters ∧ (takeLoad s p w).alarms = s.alarms ∧
    (takeLoad s p w).runner = s.runner ∧ (takeLoad s p w).out = s.out ∧
    (takeLoad s p w).openingTaken = s.openingTaken ∧
    (takeLoad s p w).eventDue = s.eventDue ∧ (takeLoad s p w).clips.intake = s.clips.intake ∧
    (takeLoad s p w).clips.reads = s.clips.reads ∧ (takeLoad s p w).engine.siteId = s.engine.siteId ∧
    (takeLoad s p w).engine.groups = s.engine.groups ∧ (takeLoad s p w).engine.intake = s.engine.intake ∧
    (takeLoad s p w).engine.lastSource = s.engine.lastSource ∧ (takeLoad s p w).engine.mask = s.engine.mask ∧
    (takeLoad s p w).engine.reports = s.engine.reports ∧ (takeLoad s p w).engine.droppedFlag = s.engine.droppedFlag ∧
    (takeLoad s p w).engine.counts = s.engine.counts := by
  unfold takeLoad
  try dsimp only
  (repeat' split) <;> simp

/-! ### the Playout Unit -/

/-- A claim that is made counts each naming (R109). -/
theorem State.claim?_some {l : List (Fin 128)} {t : State} (h : s.claim? l = some t) : t = l.foldl State.addUse s := by
  unfold State.claim? at h
  split at h
  · cases h
  · exact (Option.some.inj h).symm

@[simp] theorem State.fetchTest_keeps (n : Fin 9) :
    (s.fetchTest n).pending = s.pending ∧ (s.fetchTest n).pins = s.pins ∧ (s.fetchTest n).time = s.time ∧
    (s.fetchTest n).portA = s.portA ∧ (s.fetchTest n).portB = s.portB ∧ (s.fetchTest n).feeds = s.feeds ∧
    (s.fetchTest n).slots = s.slots ∧ (s.fetchTest n).delay = s.delay ∧ (s.fetchTest n).emitter = s.emitter ∧
    (s.fetchTest n).splice = s.splice ∧ (s.fetchTest n).counters = s.counters ∧ (s.fetchTest n).alarms = s.alarms ∧
    (s.fetchTest n).runner = s.runner ∧ (s.fetchTest n).engine = s.engine ∧ (s.fetchTest n).out = s.out ∧
    (s.fetchTest n).faultCount = s.faultCount ∧ (s.fetchTest n).openingTaken = s.openingTaken ∧
    (s.fetchTest n).eventDue = s.eventDue ∧ (s.fetchTest n).clips.pages = s.clips.pages ∧
    (s.fetchTest n).clips.intake = s.clips.intake ∧ (s.fetchTest n).clips.record = s.clips.record ∧
    (s.fetchTest n).clips.counts = s.clips.counts ∧ (s.fetchTest n).clips.entries = s.clips.entries := by
  unfold State.fetchTest
  try dsimp only
  (repeat' split) <;> simp

@[simp] theorem State.prime_keeps (n : Fin 9) (l : List (Fin 128)) (m : LabelMap) (x : Stamp) :
    (s.prime n l m x).pending = s.pending ∧ (s.prime n l m x).pins = s.pins ∧ (s.prime n l m x).time = s.time ∧
    (s.prime n l m x).portA = s.portA ∧ (s.prime n l m x).portB = s.portB ∧ (s.prime n l m x).feeds = s.feeds ∧
    (s.prime n l m x).slots = s.slots ∧ (s.prime n l m x).delay = s.delay ∧ (s.prime n l m x).emitter = s.emitter ∧
    (s.prime n l m x).splice = s.splice ∧ (s.prime n l m x).counters = s.counters ∧
    (s.prime n l m x).alarms = s.alarms ∧ (s.prime n l m x).runner = s.runner ∧ (s.prime n l m x).engine = s.engine ∧
    (s.prime n l m x).out = s.out ∧ (s.prime n l m x).faultCount = s.faultCount ∧
    (s.prime n l m x).openingTaken = s.openingTaken ∧ (s.prime n l m x).eventDue = s.eventDue ∧
    (s.prime n l m x).clips.pages = s.clips.pages ∧ (s.prime n l m x).clips.intake = s.clips.intake ∧
    (s.prime n l m x).clips.record = s.clips.record ∧ (s.prime n l m x).clips.counts = s.clips.counts ∧
    (s.prime n l m x).clips.entries = s.clips.entries := by
  unfold State.prime
  try dsimp only
  (repeat' split) <;> simp

@[simp] theorem State.take_keeps (n : Fin 9) :
    (s.take n).2.pending = s.pending ∧ (s.take n).2.pins = s.pins ∧ (s.take n).2.time = s.time ∧
    (s.take n).2.portA = s.portA ∧ (s.take n).2.portB = s.portB ∧ (s.take n).2.feeds = s.feeds ∧
    (s.take n).2.slots = s.slots ∧ (s.take n).2.delay = s.delay ∧ (s.take n).2.emitter = s.emitter ∧
    (s.take n).2.splice = s.splice ∧ (s.take n).2.counters = s.counters ∧ (s.take n).2.alarms = s.alarms ∧
    (s.take n).2.runner = s.runner ∧ (s.take n).2.engine = s.engine ∧ (s.take n).2.out = s.out ∧
    (s.take n).2.faultCount = s.faultCount ∧ (s.take n).2.openingTaken = s.openingTaken ∧
    (s.take n).2.eventDue = s.eventDue ∧ (s.take n).2.clips.pages = s.clips.pages ∧
    (s.take n).2.clips.intake = s.clips.intake ∧ (s.take n).2.clips.record = s.clips.record ∧
    (s.take n).2.clips.counts = s.clips.counts ∧ (s.take n).2.clips.entries = s.clips.entries := by
  unfold State.take
  try dsimp only
  (repeat' split) <;> simp

@[simp] theorem completeRead_keeps (r : FetchRead) :
    (completeRead s r).pending = s.pending ∧ (completeRead s r).pins = s.pins ∧ (completeRead s r).time = s.time ∧
    (completeRead s r).portA = s.portA ∧ (completeRead s r).portB = s.portB ∧ (completeRead s r).feeds = s.feeds ∧
    (completeRead s r).slots = s.slots ∧ (completeRead s r).delay = s.delay ∧
    (completeRead s r).emitter = s.emitter ∧ (completeRead s r).splice = s.splice ∧
    (completeRead s r).counters = s.counters ∧ (completeRead s r).alarms = s.alarms ∧
    (completeRead s r).runner = s.runner ∧ (completeRead s r).engine = s.engine ∧ (completeRead s r).out = s.out ∧
    (completeRead s r).faultCount = s.faultCount ∧ (completeRead s r).openingTaken = s.openingTaken ∧
    (completeRead s r).eventDue = s.eventDue ∧
    (completeRead s r).clips.pages = s.clips.pages ∧ (completeRead s r).clips.intake = s.clips.intake ∧
    (completeRead s r).clips.record = s.clips.record ∧ (completeRead s r).clips.counts = s.clips.counts := by
  unfold completeRead
  try dsimp only
  (repeat' split) <;> simp

@[simp] theorem faultRead_keeps (r : FetchRead) :
    (faultRead s r).pending = s.pending ∧ (faultRead s r).pins = s.pins ∧ (faultRead s r).time = s.time ∧
    (faultRead s r).portA = s.portA ∧ (faultRead s r).portB = s.portB ∧ (faultRead s r).feeds = s.feeds ∧
    (faultRead s r).slots = s.slots ∧ (faultRead s r).delay = s.delay ∧ (faultRead s r).emitter = s.emitter ∧
    (faultRead s r).channels = s.channels ∧ (faultRead s r).splice = s.splice ∧
    (faultRead s r).counters = s.counters ∧ (faultRead s r).alarms = s.alarms ∧ (faultRead s r).runner = s.runner ∧
    (faultRead s r).out = s.out ∧ (faultRead s r).faultCount = s.faultCount ∧
    (faultRead s r).openingTaken = s.openingTaken ∧
    (faultRead s r).eventDue = s.eventDue ∧ (faultRead s r).clips.entries = s.clips.entries ∧
    (faultRead s r).clips.pages = s.clips.pages ∧ (faultRead s r).clips.intake = s.clips.intake ∧
    (faultRead s r).clips.reads = s.clips.reads ∧ (faultRead s r).engine.siteId = s.engine.siteId ∧
    (faultRead s r).engine.groups = s.engine.groups ∧ (faultRead s r).engine.intake = s.engine.intake ∧
    (faultRead s r).engine.lastSource = s.engine.lastSource ∧ (faultRead s r).engine.mask = s.engine.mask ∧
    (faultRead s r).engine.reports = s.engine.reports ∧ (faultRead s r).engine.droppedFlag = s.engine.droppedFlag ∧
    (faultRead s r).engine.counts = s.engine.counts := by
  unfold faultRead
  try dsimp only
  (repeat' split) <;> simp

/-! ### the Splice Unit -/

@[simp] theorem State.writeRecord_keeps (n : Fin 8) (e : ScheduleEntry) (o : BreakOutcome) (r : BreakReason) :
    (s.writeRecord n e o r).pending = s.pending ∧ (s.writeRecord n e o r).pins = s.pins ∧
    (s.writeRecord n e o r).time = s.time ∧ (s.writeRecord n e o r).portA = s.portA ∧
    (s.writeRecord n e o r).portB = s.portB ∧ (s.writeRecord n e o r).feeds = s.feeds ∧
    (s.writeRecord n e o r).slots = s.slots ∧ (s.writeRecord n e o r).delay = s.delay ∧
    (s.writeRecord n e o r).emitter = s.emitter ∧ (s.writeRecord n e o r).clips = s.clips ∧
    (s.writeRecord n e o r).channels = s.channels ∧ (s.writeRecord n e o r).counters = s.counters ∧
    (s.writeRecord n e o r).alarms = s.alarms ∧ (s.writeRecord n e o r).runner = s.runner ∧
    (s.writeRecord n e o r).out = s.out ∧ (s.writeRecord n e o r).faultCount = s.faultCount ∧
    (s.writeRecord n e o r).openingTaken = s.openingTaken ∧ (s.writeRecord n e o r).eventDue = s.eventDue ∧
    (s.writeRecord n e o r).splice.services = s.splice.services ∧
    (s.writeRecord n e o r).splice.breakMap = s.splice.breakMap ∧
    (s.writeRecord n e o r).splice.badCues = s.splice.badCues ∧
    (s.writeRecord n e o r).splice.intake = s.splice.intake ∧
    (s.writeRecord n e o r).splice.schedules = s.splice.schedules ∧
    (s.writeRecord n e o r).splice.lastNoticed = s.splice.lastNoticed ∧
    (s.writeRecord n e o r).engine.siteId = s.engine.siteId ∧
    (s.writeRecord n e o r).engine.groups = s.engine.groups ∧
    (s.writeRecord n e o r).engine.intake = s.engine.intake ∧
    (s.writeRecord n e o r).engine.lastSource = s.engine.lastSource ∧
    (s.writeRecord n e o r).engine.mask = s.engine.mask ∧ (s.writeRecord n e o r).engine.reports = s.engine.reports ∧
    (s.writeRecord n e o r).engine.droppedFlag = s.engine.droppedFlag ∧
    (s.writeRecord n e o r).engine.counts = s.engine.counts := by
  unfold State.writeRecord
  try dsimp only
  (repeat' split) <;> simp

@[simp] theorem State.leaveEffects_keeps (n : Fin 8) (e : ScheduleEntry) (o : BreakOutcome) (r : BreakReason) :
    (s.leaveEffects n e o r).pending = s.pending ∧ (s.leaveEffects n e o r).pins = s.pins ∧
    (s.leaveEffects n e o r).time = s.time ∧ (s.leaveEffects n e o r).portA = s.portA ∧
    (s.leaveEffects n e o r).portB = s.portB ∧ (s.leaveEffects n e o r).feeds = s.feeds ∧
    (s.leaveEffects n e o r).slots = s.slots ∧ (s.leaveEffects n e o r).delay = s.delay ∧
    (s.leaveEffects n e o r).counters = s.counters ∧ (s.leaveEffects n e o r).alarms = s.alarms ∧
    (s.leaveEffects n e o r).runner = s.runner ∧ (s.leaveEffects n e o r).out = s.out ∧
    (s.leaveEffects n e o r).faultCount = s.faultCount ∧ (s.leaveEffects n e o r).openingTaken = s.openingTaken ∧
    (s.leaveEffects n e o r).eventDue = s.eventDue ∧ (s.leaveEffects n e o r).emitter.state = s.emitter.state ∧
    (s.leaveEffects n e o r).emitter.reasons = s.emitter.reasons ∧
    (s.leaveEffects n e o r).emitter.phase = s.emitter.phase ∧
    (s.leaveEffects n e o r).emitter.period = s.emitter.period ∧
    (s.leaveEffects n e o r).emitter.pendingPeriod = s.emitter.pendingPeriod ∧
    (s.leaveEffects n e o r).emitter.current = s.emitter.current ∧
    (s.leaveEffects n e o r).emitter.activeFeed = s.emitter.activeFeed ∧
    (s.leaveEffects n e o r).emitter.timer = s.emitter.timer ∧
    (s.leaveEffects n e o r).emitter.counts = s.emitter.counts ∧
    (s.leaveEffects n e o r).emitter.fallbackEnable = s.emitter.fallbackEnable ∧
    (s.leaveEffects n e o r).emitter.fallbackDelay = s.emitter.fallbackDelay ∧
    (s.leaveEffects n e o r).emitter.fallbackClip = s.emitter.fallbackClip ∧
    (s.leaveEffects n e o r).emitter.fallbackMap = s.emitter.fallbackMap ∧
    (s.leaveEffects n e o r).clips.pages = s.clips.pages ∧ (s.leaveEffects n e o r).clips.intake = s.clips.intake ∧
    (s.leaveEffects n e o r).clips.record = s.clips.record ∧ (s.leaveEffects n e o r).clips.counts = s.clips.counts ∧
    (s.leaveEffects n e o r).splice.services = s.splice.services ∧
    (s.leaveEffects n e o r).splice.breakMap = s.splice.breakMap ∧
    (s.leaveEffects n e o r).splice.badCues = s.splice.badCues ∧
    (s.leaveEffects n e o r).splice.intake = s.splice.intake ∧
    (s.leaveEffects n e o r).splice.schedules = s.splice.schedules ∧
    (s.leaveEffects n e o r).splice.lastNoticed = s.splice.lastNoticed ∧
    (s.leaveEffects n e o r).clips.reads = s.clips.reads ∧ (s.leaveEffects n e o r).engine.siteId = s.engine.siteId ∧
    (s.leaveEffects n e o r).engine.groups = s.engine.groups ∧
    (s.leaveEffects n e o r).engine.intake = s.engine.intake ∧
    (s.leaveEffects n e o r).engine.lastSource = s.engine.lastSource ∧
    (s.leaveEffects n e o r).engine.mask = s.engine.mask ∧
    (s.leaveEffects n e o r).engine.reports = s.engine.reports ∧
    (s.leaveEffects n e o r).engine.droppedFlag = s.engine.droppedFlag ∧
    (s.leaveEffects n e o r).engine.counts = s.engine.counts := by
  unfold State.leaveEffects
  try dsimp only
  (repeat' split) <;> simp

@[simp] theorem State.armHead_keeps (n : Fin 8) (e : ScheduleEntry) (b : Half) :
    (s.armHead n e b).2.pending = s.pending ∧ (s.armHead n e b).2.pins = s.pins ∧ (s.armHead n e b).2.time = s.time ∧
    (s.armHead n e b).2.portA = s.portA ∧ (s.armHead n e b).2.portB = s.portB ∧ (s.armHead n e b).2.feeds = s.feeds ∧
    (s.armHead n e b).2.slots = s.slots ∧ (s.armHead n e b).2.delay = s.delay ∧
    (s.armHead n e b).2.emitter = s.emitter ∧ (s.armHead n e b).2.splice = s.splice ∧
    (s.armHead n e b).2.counters = s.counters ∧ (s.armHead n e b).2.alarms = s.alarms ∧
    (s.armHead n e b).2.runner = s.runner ∧ (s.armHead n e b).2.engine = s.engine ∧ (s.armHead n e b).2.out = s.out ∧
    (s.armHead n e b).2.faultCount = s.faultCount ∧ (s.armHead n e b).2.openingTaken = s.openingTaken ∧
    (s.armHead n e b).2.eventDue = s.eventDue ∧ (s.armHead n e b).2.clips.pages = s.clips.pages ∧
    (s.armHead n e b).2.clips.intake = s.clips.intake ∧ (s.armHead n e b).2.clips.record = s.clips.record ∧
    (s.armHead n e b).2.clips.counts = s.clips.counts ∧ (s.armHead n e b).2.clips.entries = s.clips.entries := by
  unfold State.armHead
  try dsimp only
  (repeat' split) <;> simp

@[simp] theorem headTests_keeps (n : Fin 8) (b : Half) (l : List ScheduleEntry) :
    (headTests n b l s).2.pending = s.pending ∧ (headTests n b l s).2.pins = s.pins ∧
    (headTests n b l s).2.time = s.time ∧ (headTests n b l s).2.portA = s.portA ∧
    (headTests n b l s).2.portB = s.portB ∧ (headTests n b l s).2.feeds = s.feeds ∧
    (headTests n b l s).2.slots = s.slots ∧ (headTests n b l s).2.delay = s.delay ∧
    (headTests n b l s).2.counters = s.counters ∧ (headTests n b l s).2.alarms = s.alarms ∧
    (headTests n b l s).2.runner = s.runner ∧ (headTests n b l s).2.out = s.out ∧
    (headTests n b l s).2.faultCount = s.faultCount ∧ (headTests n b l s).2.openingTaken = s.openingTaken ∧
    (headTests n b l s).2.eventDue = s.eventDue ∧
    (headTests n b l s).2.emitter.state = s.emitter.state ∧
    (headTests n b l s).2.emitter.reasons = s.emitter.reasons ∧
    (headTests n b l s).2.emitter.phase = s.emitter.phase ∧ (headTests n b l s).2.emitter.period = s.emitter.period ∧
    (headTests n b l s).2.emitter.pendingPeriod = s.emitter.pendingPeriod ∧
    (headTests n b l s).2.emitter.current = s.emitter.current ∧
    (headTests n b l s).2.emitter.activeFeed = s.emitter.activeFeed ∧
    (headTests n b l s).2.emitter.timer = s.emitter.timer ∧ (headTests n b l s).2.emitter.counts = s.emitter.counts ∧
    (headTests n b l s).2.emitter.fallbackEnable = s.emitter.fallbackEnable ∧
    (headTests n b l s).2.emitter.fallbackDelay = s.emitter.fallbackDelay ∧
    (headTests n b l s).2.emitter.fallbackClip = s.emitter.fallbackClip ∧
    (headTests n b l s).2.emitter.fallbackMap = s.emitter.fallbackMap ∧
    (headTests n b l s).2.clips.pages = s.clips.pages ∧ (headTests n b l s).2.clips.intake = s.clips.intake ∧
    (headTests n b l s).2.clips.record = s.clips.record ∧ (headTests n b l s).2.clips.counts = s.clips.counts ∧
    (headTests n b l s).2.splice.services = s.splice.services ∧
    (headTests n b l s).2.splice.breakMap = s.splice.breakMap ∧
    (headTests n b l s).2.splice.badCues = s.splice.badCues ∧ (headTests n b l s).2.splice.intake = s.splice.intake ∧
    (headTests n b l s).2.splice.schedules = s.splice.schedules ∧
    (headTests n b l s).2.splice.lastNoticed = s.splice.lastNoticed ∧
    (headTests n b l s).2.engine.siteId = s.engine.siteId ∧ (headTests n b l s).2.engine.groups = s.engine.groups ∧
    (headTests n b l s).2.engine.intake = s.engine.intake ∧
    (headTests n b l s).2.engine.lastSource = s.engine.lastSource ∧
    (headTests n b l s).2.engine.mask = s.engine.mask ∧ (headTests n b l s).2.engine.reports = s.engine.reports ∧
    (headTests n b l s).2.engine.droppedFlag = s.engine.droppedFlag ∧
    (headTests n b l s).2.engine.counts = s.engine.counts := by
  induction l generalizing s with
  | nil => simp [headTests]
  | cons e l ih =>
    unfold headTests
    dsimp only
    (repeat' split) <;> simp [ih]

@[simp] theorem State.headTest_keeps (n : Fin 8) :
    (s.headTest n).pending = s.pending ∧ (s.headTest n).pins = s.pins ∧ (s.headTest n).time = s.time ∧
    (s.headTest n).portA = s.portA ∧ (s.headTest n).portB = s.portB ∧ (s.headTest n).feeds = s.feeds ∧
    (s.headTest n).slots = s.slots ∧ (s.headTest n).delay = s.delay ∧ (s.headTest n).counters = s.counters ∧
    (s.headTest n).alarms = s.alarms ∧ (s.headTest n).runner = s.runner ∧ (s.headTest n).out = s.out ∧
    (s.headTest n).faultCount = s.faultCount ∧ (s.headTest n).openingTaken = s.openingTaken ∧
    (s.headTest n).eventDue = s.eventDue ∧ (s.headTest n).emitter.state = s.emitter.state ∧
    (s.headTest n).emitter.reasons = s.emitter.reasons ∧ (s.headTest n).emitter.phase = s.emitter.phase ∧
    (s.headTest n).emitter.period = s.emitter.period ∧
    (s.headTest n).emitter.pendingPeriod = s.emitter.pendingPeriod ∧
    (s.headTest n).emitter.current = s.emitter.current ∧ (s.headTest n).emitter.activeFeed = s.emitter.activeFeed ∧
    (s.headTest n).emitter.timer = s.emitter.timer ∧ (s.headTest n).emitter.counts = s.emitter.counts ∧
    (s.headTest n).emitter.fallbackEnable = s.emitter.fallbackEnable ∧
    (s.headTest n).emitter.fallbackDelay = s.emitter.fallbackDelay ∧
    (s.headTest n).emitter.fallbackClip = s.emitter.fallbackClip ∧
    (s.headTest n).emitter.fallbackMap = s.emitter.fallbackMap ∧ (s.headTest n).clips.pages = s.clips.pages ∧
    (s.headTest n).clips.intake = s.clips.intake ∧ (s.headTest n).clips.record = s.clips.record ∧
    (s.headTest n).clips.counts = s.clips.counts ∧ (s.headTest n).splice.services = s.splice.services ∧
    (s.headTest n).splice.breakMap = s.splice.breakMap ∧ (s.headTest n).splice.badCues = s.splice.badCues ∧
    (s.headTest n).splice.intake = s.splice.intake ∧ (s.headTest n).splice.lastNoticed = s.splice.lastNoticed ∧
    (s.headTest n).engine.siteId = s.engine.siteId ∧ (s.headTest n).engine.groups = s.engine.groups ∧
    (s.headTest n).engine.intake = s.engine.intake ∧ (s.headTest n).engine.lastSource = s.engine.lastSource ∧
    (s.headTest n).engine.mask = s.engine.mask ∧ (s.headTest n).engine.reports = s.engine.reports ∧
    (s.headTest n).engine.droppedFlag = s.engine.droppedFlag ∧ (s.headTest n).engine.counts = s.engine.counts := by
  unfold State.headTest
  split <;> simp

@[simp] theorem noticeSchedule_keeps (n : Fin 8) (b : Half) (l : List ScheduleEntry) :
    (noticeSchedule n b l s).2.pending = s.pending ∧ (noticeSchedule n b l s).2.pins = s.pins ∧
    (noticeSchedule n b l s).2.time = s.time ∧ (noticeSchedule n b l s).2.portA = s.portA ∧
    (noticeSchedule n b l s).2.portB = s.portB ∧ (noticeSchedule n b l s).2.feeds = s.feeds ∧
    (noticeSchedule n b l s).2.slots = s.slots ∧ (noticeSchedule n b l s).2.delay = s.delay ∧
    (noticeSchedule n b l s).2.counters = s.counters ∧ (noticeSchedule n b l s).2.alarms = s.alarms ∧
    (noticeSchedule n b l s).2.runner = s.runner ∧ (noticeSchedule n b l s).2.out = s.out ∧
    (noticeSchedule n b l s).2.faultCount = s.faultCount ∧ (noticeSchedule n b l s).2.openingTaken = s.openingTaken ∧
    (noticeSchedule n b l s).2.eventDue = s.eventDue ∧
    (noticeSchedule n b l s).2.emitter.state = s.emitter.state ∧
    (noticeSchedule n b l s).2.emitter.reasons = s.emitter.reasons ∧
    (noticeSchedule n b l s).2.emitter.phase = s.emitter.phase ∧
    (noticeSchedule n b l s).2.emitter.period = s.emitter.period ∧
    (noticeSchedule n b l s).2.emitter.pendingPeriod = s.emitter.pendingPeriod ∧
    (noticeSchedule n b l s).2.emitter.current = s.emitter.current ∧
    (noticeSchedule n b l s).2.emitter.activeFeed = s.emitter.activeFeed ∧
    (noticeSchedule n b l s).2.emitter.timer = s.emitter.timer ∧
    (noticeSchedule n b l s).2.emitter.counts = s.emitter.counts ∧
    (noticeSchedule n b l s).2.emitter.fallbackEnable = s.emitter.fallbackEnable ∧
    (noticeSchedule n b l s).2.emitter.fallbackDelay = s.emitter.fallbackDelay ∧
    (noticeSchedule n b l s).2.emitter.fallbackClip = s.emitter.fallbackClip ∧
    (noticeSchedule n b l s).2.emitter.fallbackMap = s.emitter.fallbackMap ∧
    (noticeSchedule n b l s).2.clips.pages = s.clips.pages ∧
    (noticeSchedule n b l s).2.clips.intake = s.clips.intake ∧
    (noticeSchedule n b l s).2.clips.record = s.clips.record ∧
    (noticeSchedule n b l s).2.clips.counts = s.clips.counts ∧
    (noticeSchedule n b l s).2.splice.services = s.splice.services ∧
    (noticeSchedule n b l s).2.splice.breakMap = s.splice.breakMap ∧
    (noticeSchedule n b l s).2.splice.badCues = s.splice.badCues ∧
    (noticeSchedule n b l s).2.splice.intake = s.splice.intake ∧
    (noticeSchedule n b l s).2.splice.schedules = s.splice.schedules ∧
    (noticeSchedule n b l s).2.splice.lastNoticed = s.splice.lastNoticed ∧
    (noticeSchedule n b l s).2.engine.siteId = s.engine.siteId ∧
    (noticeSchedule n b l s).2.engine.groups = s.engine.groups ∧
    (noticeSchedule n b l s).2.engine.intake = s.engine.intake ∧
    (noticeSchedule n b l s).2.engine.lastSource = s.engine.lastSource ∧
    (noticeSchedule n b l s).2.engine.mask = s.engine.mask ∧
    (noticeSchedule n b l s).2.engine.reports = s.engine.reports ∧
    (noticeSchedule n b l s).2.engine.droppedFlag = s.engine.droppedFlag ∧
    (noticeSchedule n b l s).2.engine.counts = s.engine.counts := by
  induction l generalizing s with
  | nil => simp [noticeSchedule]
  | cons e l ih =>
    unfold noticeSchedule
    dsimp only
    (repeat' split) <;> simp [ih]

@[simp] theorem State.noticeService_keeps (b : Half) (n : Fin 8) :
    (s.noticeService b n).pending = s.pending ∧ (s.noticeService b n).pins = s.pins ∧
    (s.noticeService b n).time = s.time ∧ (s.noticeService b n).portA = s.portA ∧
    (s.noticeService b n).portB = s.portB ∧ (s.noticeService b n).feeds = s.feeds ∧
    (s.noticeService b n).slots = s.slots ∧ (s.noticeService b n).delay = s.delay ∧
    (s.noticeService b n).counters = s.counters ∧ (s.noticeService b n).alarms = s.alarms ∧
    (s.noticeService b n).runner = s.runner ∧ (s.noticeService b n).out = s.out ∧
    (s.noticeService b n).faultCount = s.faultCount ∧ (s.noticeService b n).openingTaken = s.openingTaken ∧
    (s.noticeService b n).eventDue = s.eventDue ∧ (s.noticeService b n).emitter.state = s.emitter.state ∧
    (s.noticeService b n).emitter.reasons = s.emitter.reasons ∧
    (s.noticeService b n).emitter.phase = s.emitter.phase ∧ (s.noticeService b n).emitter.period = s.emitter.period ∧
    (s.noticeService b n).emitter.pendingPeriod = s.emitter.pendingPeriod ∧
    (s.noticeService b n).emitter.current = s.emitter.current ∧
    (s.noticeService b n).emitter.activeFeed = s.emitter.activeFeed ∧
    (s.noticeService b n).emitter.timer = s.emitter.timer ∧ (s.noticeService b n).emitter.counts = s.emitter.counts ∧
    (s.noticeService b n).emitter.fallbackEnable = s.emitter.fallbackEnable ∧
    (s.noticeService b n).emitter.fallbackDelay = s.emitter.fallbackDelay ∧
    (s.noticeService b n).emitter.fallbackClip = s.emitter.fallbackClip ∧
    (s.noticeService b n).emitter.fallbackMap = s.emitter.fallbackMap ∧
    (s.noticeService b n).clips.pages = s.clips.pages ∧ (s.noticeService b n).clips.intake = s.clips.intake ∧
    (s.noticeService b n).clips.record = s.clips.record ∧ (s.noticeService b n).clips.counts = s.clips.counts ∧
    (s.noticeService b n).splice.services = s.splice.services ∧
    (s.noticeService b n).splice.breakMap = s.splice.breakMap ∧
    (s.noticeService b n).splice.badCues = s.splice.badCues ∧ (s.noticeService b n).splice.intake = s.splice.intake ∧
    (s.noticeService b n).splice.lastNoticed = s.splice.lastNoticed ∧
    (s.noticeService b n).engine.siteId = s.engine.siteId ∧ (s.noticeService b n).engine.groups = s.engine.groups ∧
    (s.noticeService b n).engine.intake = s.engine.intake ∧
    (s.noticeService b n).engine.lastSource = s.engine.lastSource ∧
    (s.noticeService b n).engine.mask = s.engine.mask ∧ (s.noticeService b n).engine.reports = s.engine.reports ∧
    (s.noticeService b n).engine.droppedFlag = s.engine.droppedFlag ∧
    (s.noticeService b n).engine.counts = s.engine.counts := by
  unfold State.noticeService
  simp

@[simp] theorem State.spliceNotice_keeps (b : Half) :
    (s.spliceNotice b).pending = s.pending ∧ (s.spliceNotice b).pins = s.pins ∧ (s.spliceNotice b).time = s.time ∧
    (s.spliceNotice b).portA = s.portA ∧ (s.spliceNotice b).portB = s.portB ∧ (s.spliceNotice b).feeds = s.feeds ∧
    (s.spliceNotice b).slots = s.slots ∧ (s.spliceNotice b).delay = s.delay ∧
    (s.spliceNotice b).counters = s.counters ∧ (s.spliceNotice b).alarms = s.alarms ∧
    (s.spliceNotice b).runner = s.runner ∧ (s.spliceNotice b).out = s.out ∧
    (s.spliceNotice b).faultCount = s.faultCount ∧ (s.spliceNotice b).openingTaken = s.openingTaken ∧
    (s.spliceNotice b).eventDue = s.eventDue ∧ (s.spliceNotice b).emitter.state = s.emitter.state ∧
    (s.spliceNotice b).emitter.reasons = s.emitter.reasons ∧ (s.spliceNotice b).emitter.phase = s.emitter.phase ∧
    (s.spliceNotice b).emitter.period = s.emitter.period ∧
    (s.spliceNotice b).emitter.pendingPeriod = s.emitter.pendingPeriod ∧
    (s.spliceNotice b).emitter.current = s.emitter.current ∧
    (s.spliceNotice b).emitter.activeFeed = s.emitter.activeFeed ∧
    (s.spliceNotice b).emitter.timer = s.emitter.timer ∧ (s.spliceNotice b).emitter.counts = s.emitter.counts ∧
    (s.spliceNotice b).emitter.fallbackEnable = s.emitter.fallbackEnable ∧
    (s.spliceNotice b).emitter.fallbackDelay = s.emitter.fallbackDelay ∧
    (s.spliceNotice b).emitter.fallbackClip = s.emitter.fallbackClip ∧
    (s.spliceNotice b).emitter.fallbackMap = s.emitter.fallbackMap ∧ (s.spliceNotice b).clips.pages = s.clips.pages ∧
    (s.spliceNotice b).clips.intake = s.clips.intake ∧ (s.spliceNotice b).clips.record = s.clips.record ∧
    (s.spliceNotice b).clips.counts = s.clips.counts ∧ (s.spliceNotice b).splice.services = s.splice.services ∧
    (s.spliceNotice b).splice.breakMap = s.splice.breakMap ∧ (s.spliceNotice b).splice.badCues = s.splice.badCues ∧
    (s.spliceNotice b).splice.intake = s.splice.intake ∧ (s.spliceNotice b).engine.siteId = s.engine.siteId ∧
    (s.spliceNotice b).engine.groups = s.engine.groups ∧ (s.spliceNotice b).engine.intake = s.engine.intake ∧
    (s.spliceNotice b).engine.lastSource = s.engine.lastSource ∧ (s.spliceNotice b).engine.mask = s.engine.mask ∧
    (s.spliceNotice b).engine.reports = s.engine.reports ∧
    (s.spliceNotice b).engine.droppedFlag = s.engine.droppedFlag ∧
    (s.spliceNotice b).engine.counts = s.engine.counts := by
  unfold State.spliceNotice
  refine ⟨foldl_keeps (·.pending) _ ?_ _ _, foldl_keeps (·.pins) _ ?_ _ _, foldl_keeps (·.time) _ ?_ _ _,
    foldl_keeps (·.portA) _ ?_ _ _, foldl_keeps (·.portB) _ ?_ _ _, foldl_keeps (·.feeds) _ ?_ _ _,
    foldl_keeps (·.slots) _ ?_ _ _, foldl_keeps (·.delay) _ ?_ _ _, foldl_keeps (·.counters) _ ?_ _ _,
    foldl_keeps (·.alarms) _ ?_ _ _, foldl_keeps (·.runner) _ ?_ _ _, foldl_keeps (·.out) _ ?_ _ _,
    foldl_keeps (·.faultCount) _ ?_ _ _, foldl_keeps (·.openingTaken) _ ?_ _ _, foldl_keeps (·.eventDue) _ ?_ _ _,
    foldl_keeps (·.emitter.state) _ ?_ _ _, foldl_keeps (·.emitter.reasons) _ ?_ _ _,
    foldl_keeps (·.emitter.phase) _ ?_ _ _, foldl_keeps (·.emitter.period) _ ?_ _ _,
    foldl_keeps (·.emitter.pendingPeriod) _ ?_ _ _, foldl_keeps (·.emitter.current) _ ?_ _ _,
    foldl_keeps (·.emitter.activeFeed) _ ?_ _ _, foldl_keeps (·.emitter.timer) _ ?_ _ _,
    foldl_keeps (·.emitter.counts) _ ?_ _ _, foldl_keeps (·.emitter.fallbackEnable) _ ?_ _ _,
    foldl_keeps (·.emitter.fallbackDelay) _ ?_ _ _, foldl_keeps (·.emitter.fallbackClip) _ ?_ _ _,
    foldl_keeps (·.emitter.fallbackMap) _ ?_ _ _, foldl_keeps (·.clips.pages) _ ?_ _ _,
    foldl_keeps (·.clips.intake) _ ?_ _ _, foldl_keeps (·.clips.record) _ ?_ _ _,
    foldl_keeps (·.clips.counts) _ ?_ _ _, foldl_keeps (·.splice.services) _ ?_ _ _,
    foldl_keeps (·.splice.breakMap) _ ?_ _ _, foldl_keeps (·.splice.badCues) _ ?_ _ _,
    foldl_keeps (·.splice.intake) _ ?_ _ _, foldl_keeps (·.engine.siteId) _ ?_ _ _,
    foldl_keeps (·.engine.groups) _ ?_ _ _, foldl_keeps (·.engine.intake) _ ?_ _ _,
    foldl_keeps (·.engine.lastSource) _ ?_ _ _, foldl_keeps (·.engine.mask) _ ?_ _ _,
    foldl_keeps (·.engine.reports) _ ?_ _ _, foldl_keeps (·.engine.droppedFlag) _ ?_ _ _,
    foldl_keeps (·.engine.counts) _ ?_ _ _⟩ <;>
    · intro b a
      first | (simp; done) | ((try dsimp only); (repeat' split) <;> simp)

@[simp] theorem State.spliceFault_keeps (n : Fin 8) (g : Word) :
    (s.spliceFault n g).pending = s.pending ∧ (s.spliceFault n g).pins = s.pins ∧ (s.spliceFault n g).time = s.time ∧
    (s.spliceFault n g).portA = s.portA ∧ (s.spliceFault n g).portB = s.portB ∧ (s.spliceFault n g).feeds = s.feeds ∧
    (s.spliceFault n g).slots = s.slots ∧ (s.spliceFault n g).delay = s.delay ∧
    (s.spliceFault n g).counters = s.counters ∧ (s.spliceFault n g).alarms = s.alarms ∧
    (s.spliceFault n g).runner = s.runner ∧ (s.spliceFault n g).out = s.out ∧
    (s.spliceFault n g).faultCount = s.faultCount ∧ (s.spliceFault n g).openingTaken = s.openingTaken ∧
    (s.spliceFault n g).eventDue = s.eventDue ∧ (s.spliceFault n g).emitter.state = s.emitter.state ∧
    (s.spliceFault n g).emitter.reasons = s.emitter.reasons ∧ (s.spliceFault n g).emitter.phase = s.emitter.phase ∧
    (s.spliceFault n g).emitter.period = s.emitter.period ∧
    (s.spliceFault n g).emitter.pendingPeriod = s.emitter.pendingPeriod ∧
    (s.spliceFault n g).emitter.current = s.emitter.current ∧
    (s.spliceFault n g).emitter.activeFeed = s.emitter.activeFeed ∧
    (s.spliceFault n g).emitter.timer = s.emitter.timer ∧ (s.spliceFault n g).emitter.counts = s.emitter.counts ∧
    (s.spliceFault n g).emitter.fallbackEnable = s.emitter.fallbackEnable ∧
    (s.spliceFault n g).emitter.fallbackDelay = s.emitter.fallbackDelay ∧
    (s.spliceFault n g).emitter.fallbackClip = s.emitter.fallbackClip ∧
    (s.spliceFault n g).emitter.fallbackMap = s.emitter.fallbackMap ∧
    (s.spliceFault n g).clips.pages = s.clips.pages ∧ (s.spliceFault n g).clips.intake = s.clips.intake ∧
    (s.spliceFault n g).clips.record = s.clips.record ∧ (s.spliceFault n g).clips.counts = s.clips.counts ∧
    (s.spliceFault n g).splice.services = s.splice.services ∧
    (s.spliceFault n g).splice.breakMap = s.splice.breakMap ∧ (s.spliceFault n g).splice.badCues = s.splice.badCues ∧
    (s.spliceFault n g).splice.intake = s.splice.intake ∧
    (s.spliceFault n g).splice.lastNoticed = s.splice.lastNoticed ∧
    (s.spliceFault n g).engine.siteId = s.engine.siteId ∧ (s.spliceFault n g).engine.groups = s.engine.groups ∧
    (s.spliceFault n g).engine.intake = s.engine.intake ∧
    (s.spliceFault n g).engine.lastSource = s.engine.lastSource ∧ (s.spliceFault n g).engine.mask = s.engine.mask ∧
    (s.spliceFault n g).engine.reports = s.engine.reports ∧
    (s.spliceFault n g).engine.droppedFlag = s.engine.droppedFlag ∧
    (s.spliceFault n g).engine.counts = s.engine.counts := by
  unfold State.spliceFault
  try dsimp only
  (repeat' split) <;> simp

@[simp] theorem State.substitute_keeps (n : Fin 8) (e : ScheduleEntry) :
    (s.substitute n e).2.pending = s.pending ∧ (s.substitute n e).2.pins = s.pins ∧
    (s.substitute n e).2.time = s.time ∧ (s.substitute n e).2.portA = s.portA ∧ (s.substitute n e).2.portB = s.portB ∧
    (s.substitute n e).2.feeds = s.feeds ∧ (s.substitute n e).2.slots = s.slots ∧
    (s.substitute n e).2.delay = s.delay ∧ (s.substitute n e).2.emitter = s.emitter ∧
    (s.substitute n e).2.splice = s.splice ∧ (s.substitute n e).2.counters = s.counters ∧
    (s.substitute n e).2.alarms = s.alarms ∧ (s.substitute n e).2.runner = s.runner ∧
    (s.substitute n e).2.engine = s.engine ∧ (s.substitute n e).2.out = s.out ∧
    (s.substitute n e).2.faultCount = s.faultCount ∧ (s.substitute n e).2.openingTaken = s.openingTaken ∧
    (s.substitute n e).2.eventDue = s.eventDue ∧ (s.substitute n e).2.clips.pages = s.clips.pages ∧
    (s.substitute n e).2.clips.intake = s.clips.intake ∧ (s.substitute n e).2.clips.record = s.clips.record ∧
    (s.substitute n e).2.clips.counts = s.clips.counts ∧ (s.substitute n e).2.clips.entries = s.clips.entries := by
  unfold State.substitute
  try dsimp only
  (repeat' split) <;> simp

@[simp] theorem State.offerSlot_keeps (n : Fin 8) (b : Half) (d : Stamp) :
    (s.offerSlot n b d).2.pending = s.pending ∧ (s.offerSlot n b d).2.pins = s.pins ∧
    (s.offerSlot n b d).2.time = s.time ∧ (s.offerSlot n b d).2.portA = s.portA ∧
    (s.offerSlot n b d).2.portB = s.portB ∧ (s.offerSlot n b d).2.feeds = s.feeds ∧
    (s.offerSlot n b d).2.slots = s.slots ∧ (s.offerSlot n b d).2.delay = s.delay ∧
    (s.offerSlot n b d).2.emitter = s.emitter ∧ (s.offerSlot n b d).2.counters = s.counters ∧
    (s.offerSlot n b d).2.alarms = s.alarms ∧ (s.offerSlot n b d).2.runner = s.runner ∧
    (s.offerSlot n b d).2.engine = s.engine ∧ (s.offerSlot n b d).2.out = s.out ∧
    (s.offerSlot n b d).2.faultCount = s.faultCount ∧ (s.offerSlot n b d).2.openingTaken = s.openingTaken ∧
    (s.offerSlot n b d).2.eventDue = s.eventDue ∧ (s.offerSlot n b d).2.clips.pages = s.clips.pages ∧
    (s.offerSlot n b d).2.clips.intake = s.clips.intake ∧ (s.offerSlot n b d).2.clips.record = s.clips.record ∧
    (s.offerSlot n b d).2.clips.counts = s.clips.counts ∧ (s.offerSlot n b d).2.clips.entries = s.clips.entries ∧
    (s.offerSlot n b d).2.splice.services = s.splice.services ∧
    (s.offerSlot n b d).2.splice.breakMap = s.splice.breakMap ∧
    (s.offerSlot n b d).2.splice.badCues = s.splice.badCues ∧ (s.offerSlot n b d).2.splice.intake = s.splice.intake ∧
    (s.offerSlot n b d).2.splice.lastNoticed = s.splice.lastNoticed ∧
    (s.offerSlot n b d).2.splice.asRun = s.splice.asRun ∧
    (s.offerSlot n b d).2.splice.lastAsRun = s.splice.lastAsRun := by
  unfold State.offerSlot
  dsimp only
  (repeat' split) <;> simp

@[simp] theorem State.cancelEntry_keeps (n : Fin 8) (e : ScheduleEntry) :
    (s.cancelEntry n e).pending = s.pending ∧ (s.cancelEntry n e).pins = s.pins ∧ (s.cancelEntry n e).time = s.time ∧
    (s.cancelEntry n e).portA = s.portA ∧ (s.cancelEntry n e).portB = s.portB ∧ (s.cancelEntry n e).feeds = s.feeds ∧
    (s.cancelEntry n e).slots = s.slots ∧ (s.cancelEntry n e).delay = s.delay ∧
    (s.cancelEntry n e).counters = s.counters ∧ (s.cancelEntry n e).alarms = s.alarms ∧
    (s.cancelEntry n e).runner = s.runner ∧ (s.cancelEntry n e).out = s.out ∧
    (s.cancelEntry n e).faultCount = s.faultCount ∧ (s.cancelEntry n e).openingTaken = s.openingTaken ∧
    (s.cancelEntry n e).eventDue = s.eventDue ∧ (s.cancelEntry n e).emitter.state = s.emitter.state ∧
    (s.cancelEntry n e).emitter.reasons = s.emitter.reasons ∧ (s.cancelEntry n e).emitter.phase = s.emitter.phase ∧
    (s.cancelEntry n e).emitter.period = s.emitter.period ∧
    (s.cancelEntry n e).emitter.pendingPeriod = s.emitter.pendingPeriod ∧
    (s.cancelEntry n e).emitter.current = s.emitter.current ∧
    (s.cancelEntry n e).emitter.activeFeed = s.emitter.activeFeed ∧
    (s.cancelEntry n e).emitter.timer = s.emitter.timer ∧ (s.cancelEntry n e).emitter.counts = s.emitter.counts ∧
    (s.cancelEntry n e).emitter.fallbackEnable = s.emitter.fallbackEnable ∧
    (s.cancelEntry n e).emitter.fallbackDelay = s.emitter.fallbackDelay ∧
    (s.cancelEntry n e).emitter.fallbackClip = s.emitter.fallbackClip ∧
    (s.cancelEntry n e).emitter.fallbackMap = s.emitter.fallbackMap ∧
    (s.cancelEntry n e).clips.pages = s.clips.pages ∧ (s.cancelEntry n e).clips.intake = s.clips.intake ∧
    (s.cancelEntry n e).clips.record = s.clips.record ∧ (s.cancelEntry n e).clips.counts = s.clips.counts ∧
    (s.cancelEntry n e).splice.services = s.splice.services ∧
    (s.cancelEntry n e).splice.breakMap = s.splice.breakMap ∧ (s.cancelEntry n e).splice.badCues = s.splice.badCues ∧
    (s.cancelEntry n e).splice.intake = s.splice.intake ∧
    (s.cancelEntry n e).splice.lastNoticed = s.splice.lastNoticed ∧
    (s.cancelEntry n e).engine.siteId = s.engine.siteId ∧ (s.cancelEntry n e).engine.groups = s.engine.groups ∧
    (s.cancelEntry n e).engine.intake = s.engine.intake ∧
    (s.cancelEntry n e).engine.lastSource = s.engine.lastSource ∧ (s.cancelEntry n e).engine.mask = s.engine.mask ∧
    (s.cancelEntry n e).engine.reports = s.engine.reports ∧
    (s.cancelEntry n e).engine.droppedFlag = s.engine.droppedFlag ∧
    (s.cancelEntry n e).engine.counts = s.engine.counts := by
  unfold State.cancelEntry
  try dsimp only
  (repeat' split) <;> simp

@[simp] theorem State.refuseCue_keeps (n : Fin 8) (r : CueRefusal) (i : Half) :
    (s.refuseCue n r i).pending = s.pending ∧ (s.refuseCue n r i).pins = s.pins ∧ (s.refuseCue n r i).time = s.time ∧
    (s.refuseCue n r i).portA = s.portA ∧ (s.refuseCue n r i).portB = s.portB ∧ (s.refuseCue n r i).feeds = s.feeds ∧
    (s.refuseCue n r i).slots = s.slots ∧ (s.refuseCue n r i).delay = s.delay ∧
    (s.refuseCue n r i).emitter = s.emitter ∧ (s.refuseCue n r i).clips = s.clips ∧
    (s.refuseCue n r i).channels = s.channels ∧ (s.refuseCue n r i).counters = s.counters ∧
    (s.refuseCue n r i).alarms = s.alarms ∧ (s.refuseCue n r i).runner = s.runner ∧ (s.refuseCue n r i).out = s.out ∧
    (s.refuseCue n r i).faultCount = s.faultCount ∧ (s.refuseCue n r i).openingTaken = s.openingTaken ∧
    (s.refuseCue n r i).eventDue = s.eventDue ∧ (s.refuseCue n r i).splice.breakMap = s.splice.breakMap ∧
    (s.refuseCue n r i).splice.intake = s.splice.intake ∧
    (s.refuseCue n r i).splice.lastNoticed = s.splice.lastNoticed ∧
    (s.refuseCue n r i).splice.schedules = s.splice.schedules ∧ (s.refuseCue n r i).splice.asRun = s.splice.asRun ∧
    (s.refuseCue n r i).splice.lastAsRun = s.splice.lastAsRun ∧
    (s.refuseCue n r i).splice.badCues = s.splice.badCues ∧ (s.refuseCue n r i).engine.siteId = s.engine.siteId ∧
    (s.refuseCue n r i).engine.groups = s.engine.groups ∧ (s.refuseCue n r i).engine.intake = s.engine.intake ∧
    (s.refuseCue n r i).engine.lastSource = s.engine.lastSource ∧ (s.refuseCue n r i).engine.mask = s.engine.mask ∧
    (s.refuseCue n r i).engine.reports = s.engine.reports ∧
    (s.refuseCue n r i).engine.droppedFlag = s.engine.droppedFlag ∧
    (s.refuseCue n r i).engine.counts = s.engine.counts := by
  unfold State.refuseCue
  try dsimp only
  (repeat' split) <;> simp

@[simp] theorem State.ignoreCue_keeps (n : Fin 8) :
    (s.ignoreCue n).pending = s.pending ∧ (s.ignoreCue n).pins = s.pins ∧ (s.ignoreCue n).time = s.time ∧
    (s.ignoreCue n).portA = s.portA ∧ (s.ignoreCue n).portB = s.portB ∧ (s.ignoreCue n).feeds = s.feeds ∧
    (s.ignoreCue n).slots = s.slots ∧ (s.ignoreCue n).delay = s.delay ∧ (s.ignoreCue n).emitter = s.emitter ∧
    (s.ignoreCue n).clips = s.clips ∧ (s.ignoreCue n).channels = s.channels ∧ (s.ignoreCue n).counters = s.counters ∧
    (s.ignoreCue n).alarms = s.alarms ∧ (s.ignoreCue n).runner = s.runner ∧ (s.ignoreCue n).engine = s.engine ∧
    (s.ignoreCue n).out = s.out ∧ (s.ignoreCue n).faultCount = s.faultCount ∧
    (s.ignoreCue n).openingTaken = s.openingTaken ∧ (s.ignoreCue n).eventDue = s.eventDue ∧
    (s.ignoreCue n).splice.breakMap = s.splice.breakMap ∧ (s.ignoreCue n).splice.intake = s.splice.intake ∧
    (s.ignoreCue n).splice.lastNoticed = s.splice.lastNoticed ∧
    (s.ignoreCue n).splice.schedules = s.splice.schedules ∧ (s.ignoreCue n).splice.asRun = s.splice.asRun ∧
    (s.ignoreCue n).splice.lastAsRun = s.splice.lastAsRun ∧ (s.ignoreCue n).splice.badCues = s.splice.badCues := by
  unfold State.ignoreCue
  try dsimp only
  (repeat' split) <;> simp

@[simp] theorem State.placeEntry_keeps (n : Fin 8) (e : ScheduleEntry) (l : List ScheduleEntry) :
    (s.placeEntry n e l).pending = s.pending ∧ (s.placeEntry n e l).pins = s.pins ∧
    (s.placeEntry n e l).time = s.time ∧ (s.placeEntry n e l).portA = s.portA ∧ (s.placeEntry n e l).portB = s.portB ∧
    (s.placeEntry n e l).feeds = s.feeds ∧ (s.placeEntry n e l).slots = s.slots ∧
    (s.placeEntry n e l).delay = s.delay ∧ (s.placeEntry n e l).counters = s.counters ∧
    (s.placeEntry n e l).alarms = s.alarms ∧ (s.placeEntry n e l).runner = s.runner ∧
    (s.placeEntry n e l).out = s.out ∧ (s.placeEntry n e l).faultCount = s.faultCount ∧
    (s.placeEntry n e l).openingTaken = s.openingTaken ∧ (s.placeEntry n e l).eventDue = s.eventDue ∧
    (s.placeEntry n e l).emitter.state = s.emitter.state ∧ (s.placeEntry n e l).emitter.reasons = s.emitter.reasons ∧
    (s.placeEntry n e l).emitter.phase = s.emitter.phase ∧ (s.placeEntry n e l).emitter.period = s.emitter.period ∧
    (s.placeEntry n e l).emitter.pendingPeriod = s.emitter.pendingPeriod ∧
    (s.placeEntry n e l).emitter.current = s.emitter.current ∧
    (s.placeEntry n e l).emitter.activeFeed = s.emitter.activeFeed ∧
    (s.placeEntry n e l).emitter.timer = s.emitter.timer ∧ (s.placeEntry n e l).emitter.counts = s.emitter.counts ∧
    (s.placeEntry n e l).emitter.fallbackEnable = s.emitter.fallbackEnable ∧
    (s.placeEntry n e l).emitter.fallbackDelay = s.emitter.fallbackDelay ∧
    (s.placeEntry n e l).emitter.fallbackClip = s.emitter.fallbackClip ∧
    (s.placeEntry n e l).emitter.fallbackMap = s.emitter.fallbackMap ∧
    (s.placeEntry n e l).clips.pages = s.clips.pages ∧ (s.placeEntry n e l).clips.intake = s.clips.intake ∧
    (s.placeEntry n e l).clips.record = s.clips.record ∧ (s.placeEntry n e l).clips.counts = s.clips.counts ∧
    (s.placeEntry n e l).splice.breakMap = s.splice.breakMap ∧ (s.placeEntry n e l).splice.intake = s.splice.intake ∧
    (s.placeEntry n e l).splice.lastNoticed = s.splice.lastNoticed ∧
    (s.placeEntry n e l).splice.badCues = s.splice.badCues ∧ (s.placeEntry n e l).engine.siteId = s.engine.siteId ∧
    (s.placeEntry n e l).engine.groups = s.engine.groups ∧ (s.placeEntry n e l).engine.intake = s.engine.intake ∧
    (s.placeEntry n e l).engine.lastSource = s.engine.lastSource ∧ (s.placeEntry n e l).engine.mask = s.engine.mask ∧
    (s.placeEntry n e l).engine.reports = s.engine.reports ∧
    (s.placeEntry n e l).engine.droppedFlag = s.engine.droppedFlag ∧
    (s.placeEntry n e l).engine.counts = s.engine.counts := by
  unfold State.placeEntry
  try dsimp only
  (repeat' split) <;> simp

@[simp] theorem State.admitCue_keeps (n : Fin 8) (c : Cue) (m : BreakEntry) (o : Option ScheduleEntry) :
    (s.admitCue n c m o).pending = s.pending ∧ (s.admitCue n c m o).pins = s.pins ∧
    (s.admitCue n c m o).time = s.time ∧ (s.admitCue n c m o).portA = s.portA ∧ (s.admitCue n c m o).portB = s.portB ∧
    (s.admitCue n c m o).feeds = s.feeds ∧ (s.admitCue n c m o).slots = s.slots ∧
    (s.admitCue n c m o).delay = s.delay ∧ (s.admitCue n c m o).counters = s.counters ∧
    (s.admitCue n c m o).alarms = s.alarms ∧ (s.admitCue n c m o).runner = s.runner ∧
    (s.admitCue n c m o).out = s.out ∧ (s.admitCue n c m o).faultCount = s.faultCount ∧
    (s.admitCue n c m o).openingTaken = s.openingTaken ∧ (s.admitCue n c m o).eventDue = s.eventDue ∧
    (s.admitCue n c m o).emitter.state = s.emitter.state ∧ (s.admitCue n c m o).emitter.reasons = s.emitter.reasons ∧
    (s.admitCue n c m o).emitter.phase = s.emitter.phase ∧ (s.admitCue n c m o).emitter.period = s.emitter.period ∧
    (s.admitCue n c m o).emitter.pendingPeriod = s.emitter.pendingPeriod ∧
    (s.admitCue n c m o).emitter.current = s.emitter.current ∧
    (s.admitCue n c m o).emitter.activeFeed = s.emitter.activeFeed ∧
    (s.admitCue n c m o).emitter.timer = s.emitter.timer ∧ (s.admitCue n c m o).emitter.counts = s.emitter.counts ∧
    (s.admitCue n c m o).emitter.fallbackEnable = s.emitter.fallbackEnable ∧
    (s.admitCue n c m o).emitter.fallbackDelay = s.emitter.fallbackDelay ∧
    (s.admitCue n c m o).emitter.fallbackClip = s.emitter.fallbackClip ∧
    (s.admitCue n c m o).emitter.fallbackMap = s.emitter.fallbackMap ∧
    (s.admitCue n c m o).clips.pages = s.clips.pages ∧ (s.admitCue n c m o).clips.intake = s.clips.intake ∧
    (s.admitCue n c m o).clips.record = s.clips.record ∧ (s.admitCue n c m o).clips.counts = s.clips.counts ∧
    (s.admitCue n c m o).splice.breakMap = s.splice.breakMap ∧ (s.admitCue n c m o).splice.intake = s.splice.intake ∧
    (s.admitCue n c m o).splice.lastNoticed = s.splice.lastNoticed ∧
    (s.admitCue n c m o).splice.badCues = s.splice.badCues ∧ (s.admitCue n c m o).engine.siteId = s.engine.siteId ∧
    (s.admitCue n c m o).engine.groups = s.engine.groups ∧ (s.admitCue n c m o).engine.intake = s.engine.intake ∧
    (s.admitCue n c m o).engine.lastSource = s.engine.lastSource ∧ (s.admitCue n c m o).engine.mask = s.engine.mask ∧
    (s.admitCue n c m o).engine.reports = s.engine.reports ∧
    (s.admitCue n c m o).engine.droppedFlag = s.engine.droppedFlag ∧
    (s.admitCue n c m o).engine.counts = s.engine.counts := by
  unfold State.admitCue
  dsimp only
  split
  · simp
  · rename_i h
    obtain rfl := State.claim?_some s h
    (repeat' split) <;> simp

@[simp] theorem State.judgeCue_keeps (n : Fin 8) (c : Cue) (m : BreakEntry) :
    (s.judgeCue n c m).pending = s.pending ∧ (s.judgeCue n c m).pins = s.pins ∧ (s.judgeCue n c m).time = s.time ∧
    (s.judgeCue n c m).portA = s.portA ∧ (s.judgeCue n c m).portB = s.portB ∧ (s.judgeCue n c m).feeds = s.feeds ∧
    (s.judgeCue n c m).slots = s.slots ∧ (s.judgeCue n c m).delay = s.delay ∧
    (s.judgeCue n c m).counters = s.counters ∧ (s.judgeCue n c m).alarms = s.alarms ∧
    (s.judgeCue n c m).runner = s.runner ∧ (s.judgeCue n c m).out = s.out ∧
    (s.judgeCue n c m).faultCount = s.faultCount ∧ (s.judgeCue n c m).openingTaken = s.openingTaken ∧
    (s.judgeCue n c m).eventDue = s.eventDue ∧ (s.judgeCue n c m).emitter.state = s.emitter.state ∧
    (s.judgeCue n c m).emitter.reasons = s.emitter.reasons ∧ (s.judgeCue n c m).emitter.phase = s.emitter.phase ∧
    (s.judgeCue n c m).emitter.period = s.emitter.period ∧
    (s.judgeCue n c m).emitter.pendingPeriod = s.emitter.pendingPeriod ∧
    (s.judgeCue n c m).emitter.current = s.emitter.current ∧
    (s.judgeCue n c m).emitter.activeFeed = s.emitter.activeFeed ∧
    (s.judgeCue n c m).emitter.timer = s.emitter.timer ∧ (s.judgeCue n c m).emitter.counts = s.emitter.counts ∧
    (s.judgeCue n c m).emitter.fallbackEnable = s.emitter.fallbackEnable ∧
    (s.judgeCue n c m).emitter.fallbackDelay = s.emitter.fallbackDelay ∧
    (s.judgeCue n c m).emitter.fallbackClip = s.emitter.fallbackClip ∧
    (s.judgeCue n c m).emitter.fallbackMap = s.emitter.fallbackMap ∧ (s.judgeCue n c m).clips.pages = s.clips.pages ∧
    (s.judgeCue n c m).clips.intake = s.clips.intake ∧ (s.judgeCue n c m).clips.record = s.clips.record ∧
    (s.judgeCue n c m).clips.counts = s.clips.counts ∧ (s.judgeCue n c m).splice.breakMap = s.splice.breakMap ∧
    (s.judgeCue n c m).splice.intake = s.splice.intake ∧
    (s.judgeCue n c m).splice.lastNoticed = s.splice.lastNoticed ∧
    (s.judgeCue n c m).splice.badCues = s.splice.badCues ∧ (s.judgeCue n c m).engine.siteId = s.engine.siteId ∧
    (s.judgeCue n c m).engine.groups = s.engine.groups ∧ (s.judgeCue n c m).engine.intake = s.engine.intake ∧
    (s.judgeCue n c m).engine.lastSource = s.engine.lastSource ∧ (s.judgeCue n c m).engine.mask = s.engine.mask ∧
    (s.judgeCue n c m).engine.reports = s.engine.reports ∧
    (s.judgeCue n c m).engine.droppedFlag = s.engine.droppedFlag ∧
    (s.judgeCue n c m).engine.counts = s.engine.counts := by
  unfold State.judgeCue
  try dsimp only
  (repeat' split) <;> simp

@[simp] theorem State.scheduleCue_keeps (n : Fin 8) (c : Cue) :
    (s.scheduleCue n c).pending = s.pending ∧ (s.scheduleCue n c).pins = s.pins ∧ (s.scheduleCue n c).time = s.time ∧
    (s.scheduleCue n c).portA = s.portA ∧ (s.scheduleCue n c).portB = s.portB ∧ (s.scheduleCue n c).feeds = s.feeds ∧
    (s.scheduleCue n c).slots = s.slots ∧ (s.scheduleCue n c).delay = s.delay ∧
    (s.scheduleCue n c).counters = s.counters ∧ (s.scheduleCue n c).alarms = s.alarms ∧
    (s.scheduleCue n c).runner = s.runner ∧ (s.scheduleCue n c).out = s.out ∧
    (s.scheduleCue n c).faultCount = s.faultCount ∧ (s.scheduleCue n c).openingTaken = s.openingTaken ∧
    (s.scheduleCue n c).eventDue = s.eventDue ∧ (s.scheduleCue n c).emitter.state = s.emitter.state ∧
    (s.scheduleCue n c).emitter.reasons = s.emitter.reasons ∧ (s.scheduleCue n c).emitter.phase = s.emitter.phase ∧
    (s.scheduleCue n c).emitter.period = s.emitter.period ∧
    (s.scheduleCue n c).emitter.pendingPeriod = s.emitter.pendingPeriod ∧
    (s.scheduleCue n c).emitter.current = s.emitter.current ∧
    (s.scheduleCue n c).emitter.activeFeed = s.emitter.activeFeed ∧
    (s.scheduleCue n c).emitter.timer = s.emitter.timer ∧ (s.scheduleCue n c).emitter.counts = s.emitter.counts ∧
    (s.scheduleCue n c).emitter.fallbackEnable = s.emitter.fallbackEnable ∧
    (s.scheduleCue n c).emitter.fallbackDelay = s.emitter.fallbackDelay ∧
    (s.scheduleCue n c).emitter.fallbackClip = s.emitter.fallbackClip ∧
    (s.scheduleCue n c).emitter.fallbackMap = s.emitter.fallbackMap ∧
    (s.scheduleCue n c).clips.pages = s.clips.pages ∧ (s.scheduleCue n c).clips.intake = s.clips.intake ∧
    (s.scheduleCue n c).clips.record = s.clips.record ∧ (s.scheduleCue n c).clips.counts = s.clips.counts ∧
    (s.scheduleCue n c).splice.breakMap = s.splice.breakMap ∧ (s.scheduleCue n c).splice.intake = s.splice.intake ∧
    (s.scheduleCue n c).splice.lastNoticed = s.splice.lastNoticed ∧
    (s.scheduleCue n c).splice.badCues = s.splice.badCues ∧ (s.scheduleCue n c).engine.siteId = s.engine.siteId ∧
    (s.scheduleCue n c).engine.groups = s.engine.groups ∧ (s.scheduleCue n c).engine.intake = s.engine.intake ∧
    (s.scheduleCue n c).engine.lastSource = s.engine.lastSource ∧ (s.scheduleCue n c).engine.mask = s.engine.mask ∧
    (s.scheduleCue n c).engine.reports = s.engine.reports ∧
    (s.scheduleCue n c).engine.droppedFlag = s.engine.droppedFlag ∧
    (s.scheduleCue n c).engine.counts = s.engine.counts := by
  unfold State.scheduleCue
  try dsimp only
  (repeat' split) <;> simp

@[simp] theorem State.cancelCue_keeps (n : Fin 8) (c : Cue) :
    (s.cancelCue n c).pending = s.pending ∧ (s.cancelCue n c).pins = s.pins ∧ (s.cancelCue n c).time = s.time ∧
    (s.cancelCue n c).portA = s.portA ∧ (s.cancelCue n c).portB = s.portB ∧ (s.cancelCue n c).feeds = s.feeds ∧
    (s.cancelCue n c).slots = s.slots ∧ (s.cancelCue n c).delay = s.delay ∧ (s.cancelCue n c).counters = s.counters ∧
    (s.cancelCue n c).alarms = s.alarms ∧ (s.cancelCue n c).runner = s.runner ∧ (s.cancelCue n c).out = s.out ∧
    (s.cancelCue n c).faultCount = s.faultCount ∧ (s.cancelCue n c).openingTaken = s.openingTaken ∧
    (s.cancelCue n c).eventDue = s.eventDue ∧ (s.cancelCue n c).emitter.state = s.emitter.state ∧
    (s.cancelCue n c).emitter.reasons = s.emitter.reasons ∧ (s.cancelCue n c).emitter.phase = s.emitter.phase ∧
    (s.cancelCue n c).emitter.period = s.emitter.period ∧
    (s.cancelCue n c).emitter.pendingPeriod = s.emitter.pendingPeriod ∧
    (s.cancelCue n c).emitter.current = s.emitter.current ∧
    (s.cancelCue n c).emitter.activeFeed = s.emitter.activeFeed ∧ (s.cancelCue n c).emitter.timer = s.emitter.timer ∧
    (s.cancelCue n c).emitter.counts = s.emitter.counts ∧
    (s.cancelCue n c).emitter.fallbackEnable = s.emitter.fallbackEnable ∧
    (s.cancelCue n c).emitter.fallbackDelay = s.emitter.fallbackDelay ∧
    (s.cancelCue n c).emitter.fallbackClip = s.emitter.fallbackClip ∧
    (s.cancelCue n c).emitter.fallbackMap = s.emitter.fallbackMap ∧ (s.cancelCue n c).clips.pages = s.clips.pages ∧
    (s.cancelCue n c).clips.intake = s.clips.intake ∧ (s.cancelCue n c).clips.record = s.clips.record ∧
    (s.cancelCue n c).clips.counts = s.clips.counts ∧ (s.cancelCue n c).splice.breakMap = s.splice.breakMap ∧
    (s.cancelCue n c).splice.intake = s.splice.intake ∧ (s.cancelCue n c).splice.lastNoticed = s.splice.lastNoticed ∧
    (s.cancelCue n c).splice.badCues = s.splice.badCues ∧ (s.cancelCue n c).engine.siteId = s.engine.siteId ∧
    (s.cancelCue n c).engine.groups = s.engine.groups ∧ (s.cancelCue n c).engine.intake = s.engine.intake ∧
    (s.cancelCue n c).engine.lastSource = s.engine.lastSource ∧ (s.cancelCue n c).engine.mask = s.engine.mask ∧
    (s.cancelCue n c).engine.reports = s.engine.reports ∧
    (s.cancelCue n c).engine.droppedFlag = s.engine.droppedFlag ∧
    (s.cancelCue n c).engine.counts = s.engine.counts := by
  unfold State.cancelCue State.cancelBreak?
  cases findBreak c.breakId (s.schedule n) <;> simp

@[simp] theorem State.badCue_keeps :
    (s.badCue).pending = s.pending ∧ (s.badCue).pins = s.pins ∧ (s.badCue).time = s.time ∧
    (s.badCue).portA = s.portA ∧ (s.badCue).portB = s.portB ∧ (s.badCue).feeds = s.feeds ∧
    (s.badCue).slots = s.slots ∧ (s.badCue).delay = s.delay ∧ (s.badCue).emitter = s.emitter ∧
    (s.badCue).clips = s.clips ∧ (s.badCue).channels = s.channels ∧ (s.badCue).counters = s.counters ∧
    (s.badCue).alarms = s.alarms ∧ (s.badCue).runner = s.runner ∧ (s.badCue).out = s.out ∧
    (s.badCue).faultCount = s.faultCount ∧ (s.badCue).openingTaken = s.openingTaken ∧
    (s.badCue).eventDue = s.eventDue ∧ (s.badCue).splice.services = s.splice.services ∧
    (s.badCue).splice.breakMap = s.splice.breakMap ∧ (s.badCue).splice.intake = s.splice.intake ∧
    (s.badCue).splice.lastNoticed = s.splice.lastNoticed ∧ (s.badCue).splice.schedules = s.splice.schedules ∧
    (s.badCue).splice.asRun = s.splice.asRun ∧ (s.badCue).splice.lastAsRun = s.splice.lastAsRun ∧
    (s.badCue).engine.siteId = s.engine.siteId ∧ (s.badCue).engine.groups = s.engine.groups ∧
    (s.badCue).engine.intake = s.engine.intake ∧ (s.badCue).engine.lastSource = s.engine.lastSource ∧
    (s.badCue).engine.mask = s.engine.mask ∧ (s.badCue).engine.reports = s.engine.reports ∧
    (s.badCue).engine.droppedFlag = s.engine.droppedFlag ∧ (s.badCue).engine.counts = s.engine.counts := by
  unfold State.badCue
  try dsimp only
  (repeat' split) <;> simp

@[simp] theorem State.takeCue_keeps (p : Payload) :
    (s.takeCue p).pending = s.pending ∧ (s.takeCue p).pins = s.pins ∧ (s.takeCue p).time = s.time ∧
    (s.takeCue p).portA = s.portA ∧ (s.takeCue p).portB = s.portB ∧ (s.takeCue p).feeds = s.feeds ∧
    (s.takeCue p).slots = s.slots ∧ (s.takeCue p).delay = s.delay ∧ (s.takeCue p).counters = s.counters ∧
    (s.takeCue p).alarms = s.alarms ∧ (s.takeCue p).runner = s.runner ∧ (s.takeCue p).out = s.out ∧
    (s.takeCue p).faultCount = s.faultCount ∧ (s.takeCue p).openingTaken = s.openingTaken ∧
    (s.takeCue p).eventDue = s.eventDue ∧ (s.takeCue p).emitter.state = s.emitter.state ∧
    (s.takeCue p).emitter.reasons = s.emitter.reasons ∧ (s.takeCue p).emitter.phase = s.emitter.phase ∧
    (s.takeCue p).emitter.period = s.emitter.period ∧ (s.takeCue p).emitter.pendingPeriod = s.emitter.pendingPeriod ∧
    (s.takeCue p).emitter.current = s.emitter.current ∧ (s.takeCue p).emitter.activeFeed = s.emitter.activeFeed ∧
    (s.takeCue p).emitter.timer = s.emitter.timer ∧ (s.takeCue p).emitter.counts = s.emitter.counts ∧
    (s.takeCue p).emitter.fallbackEnable = s.emitter.fallbackEnable ∧
    (s.takeCue p).emitter.fallbackDelay = s.emitter.fallbackDelay ∧
    (s.takeCue p).emitter.fallbackClip = s.emitter.fallbackClip ∧
    (s.takeCue p).emitter.fallbackMap = s.emitter.fallbackMap ∧ (s.takeCue p).clips.pages = s.clips.pages ∧
    (s.takeCue p).clips.intake = s.clips.intake ∧ (s.takeCue p).clips.record = s.clips.record ∧
    (s.takeCue p).clips.counts = s.clips.counts ∧ (s.takeCue p).splice.breakMap = s.splice.breakMap ∧
    (s.takeCue p).splice.intake = s.splice.intake ∧ (s.takeCue p).splice.lastNoticed = s.splice.lastNoticed ∧
    (s.takeCue p).engine.siteId = s.engine.siteId ∧ (s.takeCue p).engine.groups = s.engine.groups ∧
    (s.takeCue p).engine.intake = s.engine.intake ∧ (s.takeCue p).engine.lastSource = s.engine.lastSource ∧
    (s.takeCue p).engine.mask = s.engine.mask ∧ (s.takeCue p).engine.reports = s.engine.reports ∧
    (s.takeCue p).engine.droppedFlag = s.engine.droppedFlag ∧ (s.takeCue p).engine.counts = s.engine.counts := by
  unfold State.takeCue
  try dsimp only
  (repeat' split) <;> simp

/-! ### counters, alarms and lists -/

@[simp] theorem State.listFails_keeps (l : Fin 16) (i : Nat) (x : Status) :
    (s.listFails l i x).pending = s.pending ∧ (s.listFails l i x).pins = s.pins ∧ (s.listFails l i x).time = s.time ∧
    (s.listFails l i x).portA = s.portA ∧ (s.listFails l i x).portB = s.portB ∧ (s.listFails l i x).feeds = s.feeds ∧
    (s.listFails l i x).slots = s.slots ∧ (s.listFails l i x).delay = s.delay ∧
    (s.listFails l i x).emitter = s.emitter ∧ (s.listFails l i x).clips = s.clips ∧
    (s.listFails l i x).channels = s.channels ∧ (s.listFails l i x).splice = s.splice ∧
    (s.listFails l i x).counters = s.counters ∧ (s.listFails l i x).alarms = s.alarms ∧
    (s.listFails l i x).out = s.out ∧ (s.listFails l i x).faultCount = s.faultCount ∧
    (s.listFails l i x).openingTaken = s.openingTaken ∧ (s.listFails l i x).eventDue = s.eventDue ∧
    (s.listFails l i x).runner.descriptors = s.runner.descriptors ∧
    (s.listFails l i x).runner.store = s.runner.store ∧ (s.listFails l i x).runner.triggers = s.runner.triggers ∧
    (s.listFails l i x).engine.siteId = s.engine.siteId ∧ (s.listFails l i x).engine.groups = s.engine.groups ∧
    (s.listFails l i x).engine.intake = s.engine.intake ∧
    (s.listFails l i x).engine.lastSource = s.engine.lastSource ∧ (s.listFails l i x).engine.mask = s.engine.mask ∧
    (s.listFails l i x).engine.reports = s.engine.reports ∧
    (s.listFails l i x).engine.droppedFlag = s.engine.droppedFlag ∧
    (s.listFails l i x).engine.counts = s.engine.counts := by
  unfold State.listFails
  try dsimp only
  (repeat' split) <;> simp

@[simp] theorem State.takeTrigger_keeps :
    (s.takeTrigger).pending = s.pending ∧ (s.takeTrigger).pins = s.pins ∧ (s.takeTrigger).time = s.time ∧
    (s.takeTrigger).portA = s.portA ∧ (s.takeTrigger).portB = s.portB ∧ (s.takeTrigger).feeds = s.feeds ∧
    (s.takeTrigger).slots = s.slots ∧ (s.takeTrigger).delay = s.delay ∧ (s.takeTrigger).emitter = s.emitter ∧
    (s.takeTrigger).clips = s.clips ∧ (s.takeTrigger).channels = s.channels ∧ (s.takeTrigger).splice = s.splice ∧
    (s.takeTrigger).counters = s.counters ∧ (s.takeTrigger).alarms = s.alarms ∧ (s.takeTrigger).out = s.out ∧
    (s.takeTrigger).faultCount = s.faultCount ∧ (s.takeTrigger).openingTaken = s.openingTaken ∧
    (s.takeTrigger).eventDue = s.eventDue ∧ (s.takeTrigger).runner.descriptors = s.runner.descriptors ∧
    (s.takeTrigger).runner.store = s.runner.store ∧ (s.takeTrigger).engine.siteId = s.engine.siteId ∧
    (s.takeTrigger).engine.groups = s.engine.groups ∧ (s.takeTrigger).engine.intake = s.engine.intake ∧
    (s.takeTrigger).engine.lastSource = s.engine.lastSource ∧ (s.takeTrigger).engine.mask = s.engine.mask ∧
    (s.takeTrigger).engine.reports = s.engine.reports ∧ (s.takeTrigger).engine.droppedFlag = s.engine.droppedFlag ∧
    (s.takeTrigger).engine.counts = s.engine.counts := by
  unfold State.takeTrigger
  try dsimp only
  (repeat' split) <;> simp

@[simp] theorem State.joinTrigger_keeps (l : Fin 16) :
    (s.joinTrigger l).pending = s.pending ∧ (s.joinTrigger l).pins = s.pins ∧ (s.joinTrigger l).time = s.time ∧
    (s.joinTrigger l).portA = s.portA ∧ (s.joinTrigger l).portB = s.portB ∧ (s.joinTrigger l).feeds = s.feeds ∧
    (s.joinTrigger l).slots = s.slots ∧ (s.joinTrigger l).delay = s.delay ∧ (s.joinTrigger l).emitter = s.emitter ∧
    (s.joinTrigger l).clips = s.clips ∧ (s.joinTrigger l).channels = s.channels ∧
    (s.joinTrigger l).splice = s.splice ∧ (s.joinTrigger l).counters = s.counters ∧
    (s.joinTrigger l).alarms = s.alarms ∧ (s.joinTrigger l).out = s.out ∧
    (s.joinTrigger l).faultCount = s.faultCount ∧ (s.joinTrigger l).openingTaken = s.openingTaken ∧
    (s.joinTrigger l).eventDue = s.eventDue ∧ (s.joinTrigger l).runner.descriptors = s.runner.descriptors ∧
    (s.joinTrigger l).runner.store = s.runner.store ∧ (s.joinTrigger l).runner.state = s.runner.state ∧
    (s.joinTrigger l).runner.fault = s.runner.fault ∧ (s.joinTrigger l).engine.siteId = s.engine.siteId ∧
    (s.joinTrigger l).engine.groups = s.engine.groups ∧ (s.joinTrigger l).engine.intake = s.engine.intake ∧
    (s.joinTrigger l).engine.lastSource = s.engine.lastSource ∧ (s.joinTrigger l).engine.mask = s.engine.mask ∧
    (s.joinTrigger l).engine.reports = s.engine.reports ∧
    (s.joinTrigger l).engine.droppedFlag = s.engine.droppedFlag ∧
    (s.joinTrigger l).engine.counts = s.engine.counts := by
  unfold State.joinTrigger
  try dsimp only
  (repeat' split) <;> simp

@[simp] theorem takeTriggers_keeps (k : Nat) :
    (takeTriggers k s).pending = s.pending ∧ (takeTriggers k s).pins = s.pins ∧ (takeTriggers k s).time = s.time ∧
    (takeTriggers k s).portA = s.portA ∧ (takeTriggers k s).portB = s.portB ∧ (takeTriggers k s).feeds = s.feeds ∧
    (takeTriggers k s).slots = s.slots ∧ (takeTriggers k s).delay = s.delay ∧
    (takeTriggers k s).emitter = s.emitter ∧ (takeTriggers k s).clips = s.clips ∧
    (takeTriggers k s).channels = s.channels ∧ (takeTriggers k s).splice = s.splice ∧
    (takeTriggers k s).counters = s.counters ∧ (takeTriggers k s).alarms = s.alarms ∧
    (takeTriggers k s).out = s.out ∧ (takeTriggers k s).faultCount = s.faultCount ∧
    (takeTriggers k s).openingTaken = s.openingTaken ∧
    (takeTriggers k s).eventDue = s.eventDue ∧ (takeTriggers k s).runner.descriptors = s.runner.descriptors ∧
    (takeTriggers k s).runner.store = s.runner.store ∧ (takeTriggers k s).engine.siteId = s.engine.siteId ∧
    (takeTriggers k s).engine.groups = s.engine.groups ∧ (takeTriggers k s).engine.intake = s.engine.intake ∧
    (takeTriggers k s).engine.lastSource = s.engine.lastSource ∧ (takeTriggers k s).engine.mask = s.engine.mask ∧
    (takeTriggers k s).engine.reports = s.engine.reports ∧
    (takeTriggers k s).engine.droppedFlag = s.engine.droppedFlag ∧
    (takeTriggers k s).engine.counts = s.engine.counts := by
  induction k generalizing s with
  | zero => simp [takeTriggers]
  | succ k ih =>
    unfold takeTriggers
    simp [ih]

@[simp] theorem State.runnerTakes_keeps :
    (s.runnerTakes).pending = s.pending ∧ (s.runnerTakes).pins = s.pins ∧ (s.runnerTakes).time = s.time ∧
    (s.runnerTakes).portA = s.portA ∧ (s.runnerTakes).portB = s.portB ∧ (s.runnerTakes).feeds = s.feeds ∧
    (s.runnerTakes).slots = s.slots ∧ (s.runnerTakes).delay = s.delay ∧ (s.runnerTakes).emitter = s.emitter ∧
    (s.runnerTakes).clips = s.clips ∧ (s.runnerTakes).channels = s.channels ∧ (s.runnerTakes).splice = s.splice ∧
    (s.runnerTakes).counters = s.counters ∧ (s.runnerTakes).alarms = s.alarms ∧ (s.runnerTakes).out = s.out ∧
    (s.runnerTakes).faultCount = s.faultCount ∧ (s.runnerTakes).openingTaken = s.openingTaken ∧
    (s.runnerTakes).eventDue = s.eventDue ∧ (s.runnerTakes).runner.descriptors = s.runner.descriptors ∧
    (s.runnerTakes).runner.store = s.runner.store ∧ (s.runnerTakes).engine.siteId = s.engine.siteId ∧
    (s.runnerTakes).engine.groups = s.engine.groups ∧ (s.runnerTakes).engine.intake = s.engine.intake ∧
    (s.runnerTakes).engine.lastSource = s.engine.lastSource ∧ (s.runnerTakes).engine.mask = s.engine.mask ∧
    (s.runnerTakes).engine.reports = s.engine.reports ∧ (s.runnerTakes).engine.droppedFlag = s.engine.droppedFlag ∧
    (s.runnerTakes).engine.counts = s.engine.counts := by
  unfold State.runnerTakes
  try dsimp only
  (repeat' split) <;> simp

@[simp] theorem State.push_keeps (l : Fin 16) :
    (s.push l).pending = s.pending ∧ (s.push l).pins = s.pins ∧ (s.push l).time = s.time ∧
    (s.push l).portA = s.portA ∧ (s.push l).portB = s.portB ∧ (s.push l).feeds = s.feeds ∧
    (s.push l).slots = s.slots ∧ (s.push l).delay = s.delay ∧ (s.push l).emitter = s.emitter ∧
    (s.push l).clips = s.clips ∧ (s.push l).channels = s.channels ∧ (s.push l).splice = s.splice ∧
    (s.push l).counters = s.counters ∧ (s.push l).alarms = s.alarms ∧ (s.push l).out = s.out ∧
    (s.push l).faultCount = s.faultCount ∧ (s.push l).openingTaken = s.openingTaken ∧
    (s.push l).eventDue = s.eventDue ∧ (s.push l).runner.descriptors = s.runner.descriptors ∧
    (s.push l).runner.store = s.runner.store ∧ (s.push l).engine.siteId = s.engine.siteId ∧
    (s.push l).engine.groups = s.engine.groups ∧ (s.push l).engine.intake = s.engine.intake ∧
    (s.push l).engine.lastSource = s.engine.lastSource ∧ (s.push l).engine.mask = s.engine.mask ∧
    (s.push l).engine.reports = s.engine.reports ∧ (s.push l).engine.droppedFlag = s.engine.droppedFlag ∧
    (s.push l).engine.counts = s.engine.counts := by
  unfold State.push
  try dsimp only
  (repeat' split) <;> simp

@[simp] theorem State.pushOpt_keeps (l : Option (Fin 16)) :
    (s.push? l).pending = s.pending ∧ (s.push? l).pins = s.pins ∧ (s.push? l).time = s.time ∧
    (s.push? l).portA = s.portA ∧ (s.push? l).portB = s.portB ∧ (s.push? l).feeds = s.feeds ∧
    (s.push? l).slots = s.slots ∧ (s.push? l).delay = s.delay ∧ (s.push? l).emitter = s.emitter ∧
    (s.push? l).clips = s.clips ∧ (s.push? l).channels = s.channels ∧ (s.push? l).splice = s.splice ∧
    (s.push? l).counters = s.counters ∧ (s.push? l).alarms = s.alarms ∧ (s.push? l).out = s.out ∧
    (s.push? l).faultCount = s.faultCount ∧ (s.push? l).openingTaken = s.openingTaken ∧
    (s.push? l).eventDue = s.eventDue ∧ (s.push? l).runner.descriptors = s.runner.descriptors ∧
    (s.push? l).runner.store = s.runner.store ∧ (s.push? l).engine.siteId = s.engine.siteId ∧
    (s.push? l).engine.groups = s.engine.groups ∧ (s.push? l).engine.intake = s.engine.intake ∧
    (s.push? l).engine.lastSource = s.engine.lastSource ∧ (s.push? l).engine.mask = s.engine.mask ∧
    (s.push? l).engine.reports = s.engine.reports ∧ (s.push? l).engine.droppedFlag = s.engine.droppedFlag ∧
    (s.push? l).engine.counts = s.engine.counts := by
  unfold State.push?
  try dsimp only
  (repeat' split) <;> simp

@[simp] theorem State.underflowOne_keeps (n : Fin 4) :
    (s.underflowOne n).pending = s.pending ∧ (s.underflowOne n).pins = s.pins ∧ (s.underflowOne n).time = s.time ∧
    (s.underflowOne n).portA = s.portA ∧ (s.underflowOne n).portB = s.portB ∧ (s.underflowOne n).feeds = s.feeds ∧
    (s.underflowOne n).slots = s.slots ∧ (s.underflowOne n).delay = s.delay ∧ (s.underflowOne n).emitter = s.emitter ∧
    (s.underflowOne n).clips = s.clips ∧ (s.underflowOne n).channels = s.channels ∧
    (s.underflowOne n).splice = s.splice ∧ (s.underflowOne n).alarms = s.alarms ∧ (s.underflowOne n).out = s.out ∧
    (s.underflowOne n).faultCount = s.faultCount ∧ (s.underflowOne n).openingTaken = s.openingTaken ∧
    (s.underflowOne n).eventDue = s.eventDue ∧ (s.underflowOne n).runner.descriptors = s.runner.descriptors ∧
    (s.underflowOne n).runner.store = s.runner.store ∧ (s.underflowOne n).engine.siteId = s.engine.siteId ∧
    (s.underflowOne n).engine.groups = s.engine.groups ∧ (s.underflowOne n).engine.intake = s.engine.intake ∧
    (s.underflowOne n).engine.lastSource = s.engine.lastSource ∧ (s.underflowOne n).engine.mask = s.engine.mask ∧
    (s.underflowOne n).engine.reports = s.engine.reports ∧
    (s.underflowOne n).engine.droppedFlag = s.engine.droppedFlag ∧
    (s.underflowOne n).engine.counts = s.engine.counts := by
  unfold State.underflowOne
  try dsimp only
  (repeat' split) <;> simp

@[simp] theorem pulseFrom_keeps (fuel : Nat) (n : Fin 4) :
    (pulseFrom fuel n s).pending = s.pending ∧ (pulseFrom fuel n s).pins = s.pins ∧
    (pulseFrom fuel n s).time = s.time ∧ (pulseFrom fuel n s).portA = s.portA ∧
    (pulseFrom fuel n s).portB = s.portB ∧ (pulseFrom fuel n s).feeds = s.feeds ∧
    (pulseFrom fuel n s).slots = s.slots ∧ (pulseFrom fuel n s).delay = s.delay ∧
    (pulseFrom fuel n s).emitter = s.emitter ∧ (pulseFrom fuel n s).clips = s.clips ∧
    (pulseFrom fuel n s).channels = s.channels ∧ (pulseFrom fuel n s).splice = s.splice ∧
    (pulseFrom fuel n s).alarms = s.alarms ∧ (pulseFrom fuel n s).out = s.out ∧
    (pulseFrom fuel n s).faultCount = s.faultCount ∧ (pulseFrom fuel n s).openingTaken = s.openingTaken ∧
    (pulseFrom fuel n s).eventDue = s.eventDue ∧
    (pulseFrom fuel n s).runner.descriptors = s.runner.descriptors ∧
    (pulseFrom fuel n s).runner.store = s.runner.store ∧ (pulseFrom fuel n s).engine.siteId = s.engine.siteId ∧
    (pulseFrom fuel n s).engine.groups = s.engine.groups ∧ (pulseFrom fuel n s).engine.intake = s.engine.intake ∧
    (pulseFrom fuel n s).engine.lastSource = s.engine.lastSource ∧ (pulseFrom fuel n s).engine.mask = s.engine.mask ∧
    (pulseFrom fuel n s).engine.reports = s.engine.reports ∧
    (pulseFrom fuel n s).engine.droppedFlag = s.engine.droppedFlag ∧
    (pulseFrom fuel n s).engine.counts = s.engine.counts := by
  induction fuel generalizing s n with
  | zero => simp [pulseFrom]
  | succ k ih =>
    unfold pulseFrom
    (repeat' split) <;> simp_all

@[simp] theorem State.pulse_keeps (n : Fin 4) :
    (s.pulse n).pending = s.pending ∧ (s.pulse n).pins = s.pins ∧ (s.pulse n).time = s.time ∧
    (s.pulse n).portA = s.portA ∧ (s.pulse n).portB = s.portB ∧ (s.pulse n).feeds = s.feeds ∧
    (s.pulse n).slots = s.slots ∧ (s.pulse n).delay = s.delay ∧ (s.pulse n).emitter = s.emitter ∧
    (s.pulse n).clips = s.clips ∧ (s.pulse n).channels = s.channels ∧ (s.pulse n).splice = s.splice ∧
    (s.pulse n).alarms = s.alarms ∧ (s.pulse n).out = s.out ∧ (s.pulse n).faultCount = s.faultCount ∧
    (s.pulse n).openingTaken = s.openingTaken ∧ (s.pulse n).eventDue = s.eventDue ∧
    (s.pulse n).runner.descriptors = s.runner.descriptors ∧ (s.pulse n).runner.store = s.runner.store ∧
    (s.pulse n).engine.siteId = s.engine.siteId ∧ (s.pulse n).engine.groups = s.engine.groups ∧
    (s.pulse n).engine.intake = s.engine.intake ∧ (s.pulse n).engine.lastSource = s.engine.lastSource ∧
    (s.pulse n).engine.mask = s.engine.mask ∧ (s.pulse n).engine.reports = s.engine.reports ∧
    (s.pulse n).engine.droppedFlag = s.engine.droppedFlag ∧ (s.pulse n).engine.counts = s.engine.counts := by
  unfold State.pulse
  simp

@[simp] theorem State.pulseAll_keeps (c : CounterSource) :
    (s.pulseAll c).pending = s.pending ∧ (s.pulseAll c).pins = s.pins ∧ (s.pulseAll c).time = s.time ∧
    (s.pulseAll c).portA = s.portA ∧ (s.pulseAll c).portB = s.portB ∧ (s.pulseAll c).feeds = s.feeds ∧
    (s.pulseAll c).slots = s.slots ∧ (s.pulseAll c).delay = s.delay ∧ (s.pulseAll c).emitter = s.emitter ∧
    (s.pulseAll c).clips = s.clips ∧ (s.pulseAll c).channels = s.channels ∧ (s.pulseAll c).splice = s.splice ∧
    (s.pulseAll c).alarms = s.alarms ∧ (s.pulseAll c).out = s.out ∧ (s.pulseAll c).faultCount = s.faultCount ∧
    (s.pulseAll c).openingTaken = s.openingTaken ∧ (s.pulseAll c).eventDue = s.eventDue ∧
    (s.pulseAll c).runner.descriptors = s.runner.descriptors ∧ (s.pulseAll c).runner.store = s.runner.store ∧
    (s.pulseAll c).engine.siteId = s.engine.siteId ∧ (s.pulseAll c).engine.groups = s.engine.groups ∧
    (s.pulseAll c).engine.intake = s.engine.intake ∧ (s.pulseAll c).engine.lastSource = s.engine.lastSource ∧
    (s.pulseAll c).engine.mask = s.engine.mask ∧ (s.pulseAll c).engine.reports = s.engine.reports ∧
    (s.pulseAll c).engine.droppedFlag = s.engine.droppedFlag ∧ (s.pulseAll c).engine.counts = s.engine.counts := by
  unfold State.pulseAll
  refine ⟨foldl_keeps (·.pending) _ ?_ _ _, foldl_keeps (·.pins) _ ?_ _ _, foldl_keeps (·.time) _ ?_ _ _,
    foldl_keeps (·.portA) _ ?_ _ _, foldl_keeps (·.portB) _ ?_ _ _, foldl_keeps (·.feeds) _ ?_ _ _,
    foldl_keeps (·.slots) _ ?_ _ _, foldl_keeps (·.delay) _ ?_ _ _, foldl_keeps (·.emitter) _ ?_ _ _,
    foldl_keeps (·.clips) _ ?_ _ _, foldl_keeps (·.channels) _ ?_ _ _, foldl_keeps (·.splice) _ ?_ _ _,
    foldl_keeps (·.alarms) _ ?_ _ _, foldl_keeps (·.out) _ ?_ _ _, foldl_keeps (·.faultCount) _ ?_ _ _,
    foldl_keeps (·.openingTaken) _ ?_ _ _, foldl_keeps (·.eventDue) _ ?_ _ _, foldl_keeps (·.runner.descriptors) _ ?_ _ _,
    foldl_keeps (·.runner.store) _ ?_ _ _, foldl_keeps (·.engine.siteId) _ ?_ _ _,
    foldl_keeps (·.engine.groups) _ ?_ _ _, foldl_keeps (·.engine.intake) _ ?_ _ _,
    foldl_keeps (·.engine.lastSource) _ ?_ _ _, foldl_keeps (·.engine.mask) _ ?_ _ _,
    foldl_keeps (·.engine.reports) _ ?_ _ _, foldl_keeps (·.engine.droppedFlag) _ ?_ _ _,
    foldl_keeps (·.engine.counts) _ ?_ _ _⟩ <;>
    · intro b a
      first | (simp; done) | ((try dsimp only); (repeat' split) <;> simp)

@[simp] theorem State.fireAlarm_keeps (n : Fin 4) :
    (s.fireAlarm n).pending = s.pending ∧ (s.fireAlarm n).pins = s.pins ∧ (s.fireAlarm n).time = s.time ∧
    (s.fireAlarm n).portA = s.portA ∧ (s.fireAlarm n).portB = s.portB ∧ (s.fireAlarm n).feeds = s.feeds ∧
    (s.fireAlarm n).slots = s.slots ∧ (s.fireAlarm n).delay = s.delay ∧ (s.fireAlarm n).emitter = s.emitter ∧
    (s.fireAlarm n).clips = s.clips ∧ (s.fireAlarm n).channels = s.channels ∧ (s.fireAlarm n).splice = s.splice ∧
    (s.fireAlarm n).counters = s.counters ∧ (s.fireAlarm n).out = s.out ∧ (s.fireAlarm n).faultCount = s.faultCount ∧
    (s.fireAlarm n).openingTaken = s.openingTaken ∧ (s.fireAlarm n).eventDue = s.eventDue ∧
    (s.fireAlarm n).runner.descriptors = s.runner.descriptors ∧ (s.fireAlarm n).runner.store = s.runner.store ∧
    (s.fireAlarm n).engine.siteId = s.engine.siteId ∧ (s.fireAlarm n).engine.groups = s.engine.groups ∧
    (s.fireAlarm n).engine.intake = s.engine.intake ∧ (s.fireAlarm n).engine.lastSource = s.engine.lastSource ∧
    (s.fireAlarm n).engine.mask = s.engine.mask ∧ (s.fireAlarm n).engine.reports = s.engine.reports ∧
    (s.fireAlarm n).engine.droppedFlag = s.engine.droppedFlag ∧ (s.fireAlarm n).engine.counts = s.engine.counts := by
  unfold State.fireAlarm
  try dsimp only
  (repeat' split) <;> simp

@[simp] theorem State.alarmTest_keeps :
    (s.alarmTest).pending = s.pending ∧ (s.alarmTest).pins = s.pins ∧ (s.alarmTest).time = s.time ∧
    (s.alarmTest).portA = s.portA ∧ (s.alarmTest).portB = s.portB ∧ (s.alarmTest).feeds = s.feeds ∧
    (s.alarmTest).slots = s.slots ∧ (s.alarmTest).delay = s.delay ∧ (s.alarmTest).emitter = s.emitter ∧
    (s.alarmTest).clips = s.clips ∧ (s.alarmTest).channels = s.channels ∧ (s.alarmTest).splice = s.splice ∧
    (s.alarmTest).counters = s.counters ∧ (s.alarmTest).out = s.out ∧ (s.alarmTest).faultCount = s.faultCount ∧
    (s.alarmTest).openingTaken = s.openingTaken ∧ (s.alarmTest).eventDue = s.eventDue ∧
    (s.alarmTest).runner.descriptors = s.runner.descriptors ∧ (s.alarmTest).runner.store = s.runner.store ∧
    (s.alarmTest).engine.siteId = s.engine.siteId ∧ (s.alarmTest).engine.groups = s.engine.groups ∧
    (s.alarmTest).engine.intake = s.engine.intake ∧ (s.alarmTest).engine.lastSource = s.engine.lastSource ∧
    (s.alarmTest).engine.mask = s.engine.mask ∧ (s.alarmTest).engine.reports = s.engine.reports ∧
    (s.alarmTest).engine.droppedFlag = s.engine.droppedFlag ∧ (s.alarmTest).engine.counts = s.engine.counts := by
  unfold State.alarmTest
  refine ⟨foldl_keeps (·.pending) _ ?_ _ _, foldl_keeps (·.pins) _ ?_ _ _, foldl_keeps (·.time) _ ?_ _ _,
    foldl_keeps (·.portA) _ ?_ _ _, foldl_keeps (·.portB) _ ?_ _ _, foldl_keeps (·.feeds) _ ?_ _ _,
    foldl_keeps (·.slots) _ ?_ _ _, foldl_keeps (·.delay) _ ?_ _ _, foldl_keeps (·.emitter) _ ?_ _ _,
    foldl_keeps (·.clips) _ ?_ _ _, foldl_keeps (·.channels) _ ?_ _ _, foldl_keeps (·.splice) _ ?_ _ _,
    foldl_keeps (·.counters) _ ?_ _ _, foldl_keeps (·.out) _ ?_ _ _, foldl_keeps (·.faultCount) _ ?_ _ _,
    foldl_keeps (·.openingTaken) _ ?_ _ _, foldl_keeps (·.eventDue) _ ?_ _ _, foldl_keeps (·.runner.descriptors) _ ?_ _ _,
    foldl_keeps (·.runner.store) _ ?_ _ _, foldl_keeps (·.engine.siteId) _ ?_ _ _,
    foldl_keeps (·.engine.groups) _ ?_ _ _, foldl_keeps (·.engine.intake) _ ?_ _ _,
    foldl_keeps (·.engine.lastSource) _ ?_ _ _, foldl_keeps (·.engine.mask) _ ?_ _ _,
    foldl_keeps (·.engine.reports) _ ?_ _ _, foldl_keeps (·.engine.droppedFlag) _ ?_ _ _,
    foldl_keeps (·.engine.counts) _ ?_ _ _⟩ <;>
    · intro b a
      first | (simp; done) | ((try dsimp only); (repeat' split) <;> simp)

@[simp] theorem State.returnStatus_keeps (x : Status) :
    (s.returnStatus x).pending = s.pending ∧ (s.returnStatus x).pins = s.pins ∧ (s.returnStatus x).time = s.time ∧
    (s.returnStatus x).portA = s.portA ∧ (s.returnStatus x).portB = s.portB ∧ (s.returnStatus x).feeds = s.feeds ∧
    (s.returnStatus x).slots = s.slots ∧ (s.returnStatus x).delay = s.delay ∧ (s.returnStatus x).emitter = s.emitter ∧
    (s.returnStatus x).clips = s.clips ∧ (s.returnStatus x).channels = s.channels ∧
    (s.returnStatus x).splice = s.splice ∧ (s.returnStatus x).counters = s.counters ∧
    (s.returnStatus x).alarms = s.alarms ∧ (s.returnStatus x).out = s.out ∧
    (s.returnStatus x).faultCount = s.faultCount ∧ (s.returnStatus x).openingTaken = s.openingTaken ∧
    (s.returnStatus x).eventDue = s.eventDue ∧ (s.returnStatus x).runner.descriptors = s.runner.descriptors ∧
    (s.returnStatus x).runner.store = s.runner.store ∧ (s.returnStatus x).runner.triggers = s.runner.triggers ∧
    (s.returnStatus x).engine.siteId = s.engine.siteId ∧ (s.returnStatus x).engine.groups = s.engine.groups ∧
    (s.returnStatus x).engine.intake = s.engine.intake ∧ (s.returnStatus x).engine.lastSource = s.engine.lastSource ∧
    (s.returnStatus x).engine.mask = s.engine.mask ∧ (s.returnStatus x).engine.reports = s.engine.reports ∧
    (s.returnStatus x).engine.droppedFlag = s.engine.droppedFlag ∧
    (s.returnStatus x).engine.counts = s.engine.counts := by
  unfold State.returnStatus
  try dsimp only
  (repeat' split) <;> simp

/-! ### the Slot Table -/

@[simp] theorem State.withdrawCopy_keeps (i : Fin 256) (f : Feed) :
    (s.withdrawCopy i f).pending = s.pending ∧ (s.withdrawCopy i f).pins = s.pins ∧
    (s.withdrawCopy i f).time = s.time ∧ (s.withdrawCopy i f).feeds = s.feeds ∧ (s.withdrawCopy i f).slots = s.slots ∧
    (s.withdrawCopy i f).delay = s.delay ∧ (s.withdrawCopy i f).emitter = s.emitter ∧
    (s.withdrawCopy i f).clips = s.clips ∧ (s.withdrawCopy i f).channels = s.channels ∧
    (s.withdrawCopy i f).splice = s.splice ∧ (s.withdrawCopy i f).counters = s.counters ∧
    (s.withdrawCopy i f).alarms = s.alarms ∧ (s.withdrawCopy i f).runner = s.runner ∧
    (s.withdrawCopy i f).engine = s.engine ∧ (s.withdrawCopy i f).out = s.out ∧
    (s.withdrawCopy i f).faultCount = s.faultCount ∧ (s.withdrawCopy i f).openingTaken = s.openingTaken ∧
    (s.withdrawCopy i f).eventDue = s.eventDue := by
  unfold State.withdrawCopy
  try dsimp only
  (repeat' split) <;> simp

@[simp] theorem State.withdrawCopies_keeps (i : Fin 256) :
    (s.withdrawCopies i).pending = s.pending ∧ (s.withdrawCopies i).pins = s.pins ∧
    (s.withdrawCopies i).time = s.time ∧ (s.withdrawCopies i).feeds = s.feeds ∧ (s.withdrawCopies i).slots = s.slots ∧
    (s.withdrawCopies i).delay = s.delay ∧ (s.withdrawCopies i).emitter = s.emitter ∧
    (s.withdrawCopies i).clips = s.clips ∧ (s.withdrawCopies i).channels = s.channels ∧
    (s.withdrawCopies i).splice = s.splice ∧ (s.withdrawCopies i).counters = s.counters ∧
    (s.withdrawCopies i).alarms = s.alarms ∧ (s.withdrawCopies i).runner = s.runner ∧
    (s.withdrawCopies i).engine = s.engine ∧ (s.withdrawCopies i).out = s.out ∧
    (s.withdrawCopies i).faultCount = s.faultCount ∧ (s.withdrawCopies i).openingTaken = s.openingTaken ∧
    (s.withdrawCopies i).eventDue = s.eventDue := by
  unfold State.withdrawCopies
  try dsimp only
  (repeat' split) <;> simp

@[simp] theorem State.freeSlot_keeps (i : Fin 256) :
    (s.freeSlot i).pending = s.pending ∧ (s.freeSlot i).pins = s.pins ∧ (s.freeSlot i).time = s.time ∧
    (s.freeSlot i).feeds = s.feeds ∧ (s.freeSlot i).delay = s.delay ∧ (s.freeSlot i).emitter = s.emitter ∧
    (s.freeSlot i).clips = s.clips ∧ (s.freeSlot i).channels = s.channels ∧ (s.freeSlot i).splice = s.splice ∧
    (s.freeSlot i).counters = s.counters ∧ (s.freeSlot i).alarms = s.alarms ∧ (s.freeSlot i).runner = s.runner ∧
    (s.freeSlot i).engine = s.engine ∧ (s.freeSlot i).out = s.out ∧ (s.freeSlot i).faultCount = s.faultCount ∧
    (s.freeSlot i).openingTaken = s.openingTaken ∧ (s.freeSlot i).eventDue = s.eventDue ∧
    (s.freeSlot i).slots.minLead = s.slots.minLead ∧ (s.freeSlot i).slots.maxAhead = s.slots.maxAhead ∧
    (s.freeSlot i).slots.queue = s.slots.queue ∧ (s.freeSlot i).slots.counts = s.slots.counts := by
  unfold State.freeSlot
  try dsimp only
  (repeat' split) <;> simp

@[simp] theorem State.lossTest_keeps (i : Fin 256) :
    (s.lossTest i).pending = s.pending ∧ (s.lossTest i).pins = s.pins ∧ (s.lossTest i).time = s.time ∧
    (s.lossTest i).feeds = s.feeds ∧ (s.lossTest i).delay = s.delay ∧ (s.lossTest i).emitter = s.emitter ∧
    (s.lossTest i).clips = s.clips ∧ (s.lossTest i).channels = s.channels ∧ (s.lossTest i).splice = s.splice ∧
    (s.lossTest i).counters = s.counters ∧ (s.lossTest i).alarms = s.alarms ∧ (s.lossTest i).runner = s.runner ∧
    (s.lossTest i).out = s.out ∧ (s.lossTest i).faultCount = s.faultCount ∧
    (s.lossTest i).openingTaken = s.openingTaken ∧ (s.lossTest i).eventDue = s.eventDue ∧
    (s.lossTest i).slots.minLead = s.slots.minLead ∧ (s.lossTest i).slots.maxAhead = s.slots.maxAhead ∧
    (s.lossTest i).slots.queue = s.slots.queue ∧ (s.lossTest i).engine.siteId = s.engine.siteId ∧
    (s.lossTest i).engine.groups = s.engine.groups ∧ (s.lossTest i).engine.intake = s.engine.intake ∧
    (s.lossTest i).engine.lastSource = s.engine.lastSource ∧ (s.lossTest i).engine.mask = s.engine.mask ∧
    (s.lossTest i).engine.reports = s.engine.reports ∧ (s.lossTest i).engine.droppedFlag = s.engine.droppedFlag ∧
    (s.lossTest i).engine.counts = s.engine.counts := by
  unfold State.lossTest
  try dsimp only
  (repeat' split) <;> simp

@[simp] theorem State.lossTests_keeps :
    (s.lossTests).pending = s.pending ∧ (s.lossTests).pins = s.pins ∧ (s.lossTests).time = s.time ∧
    (s.lossTests).feeds = s.feeds ∧ (s.lossTests).delay = s.delay ∧ (s.lossTests).emitter = s.emitter ∧
    (s.lossTests).clips = s.clips ∧ (s.lossTests).channels = s.channels ∧ (s.lossTests).splice = s.splice ∧
    (s.lossTests).counters = s.counters ∧ (s.lossTests).alarms = s.alarms ∧ (s.lossTests).runner = s.runner ∧
    (s.lossTests).out = s.out ∧ (s.lossTests).faultCount = s.faultCount ∧
    (s.lossTests).openingTaken = s.openingTaken ∧ (s.lossTests).eventDue = s.eventDue ∧
    (s.lossTests).slots.minLead = s.slots.minLead ∧ (s.lossTests).slots.maxAhead = s.slots.maxAhead ∧
    (s.lossTests).slots.queue = s.slots.queue ∧ (s.lossTests).engine.siteId = s.engine.siteId ∧
    (s.lossTests).engine.groups = s.engine.groups ∧ (s.lossTests).engine.intake = s.engine.intake ∧
    (s.lossTests).engine.lastSource = s.engine.lastSource ∧ (s.lossTests).engine.mask = s.engine.mask ∧
    (s.lossTests).engine.reports = s.engine.reports ∧ (s.lossTests).engine.droppedFlag = s.engine.droppedFlag ∧
    (s.lossTests).engine.counts = s.engine.counts := by
  unfold State.lossTests
  refine ⟨foldl_keeps (·.pending) _ ?_ _ _, foldl_keeps (·.pins) _ ?_ _ _, foldl_keeps (·.time) _ ?_ _ _,
    foldl_keeps (·.feeds) _ ?_ _ _, foldl_keeps (·.delay) _ ?_ _ _, foldl_keeps (·.emitter) _ ?_ _ _,
    foldl_keeps (·.clips) _ ?_ _ _, foldl_keeps (·.channels) _ ?_ _ _, foldl_keeps (·.splice) _ ?_ _ _,
    foldl_keeps (·.counters) _ ?_ _ _, foldl_keeps (·.alarms) _ ?_ _ _, foldl_keeps (·.runner) _ ?_ _ _,
    foldl_keeps (·.out) _ ?_ _ _, foldl_keeps (·.faultCount) _ ?_ _ _, foldl_keeps (·.openingTaken) _ ?_ _ _, foldl_keeps (·.eventDue) _ ?_ _ _,
    foldl_keeps (·.slots.minLead) _ ?_ _ _, foldl_keeps (·.slots.maxAhead) _ ?_ _ _,
    foldl_keeps (·.slots.queue) _ ?_ _ _, foldl_keeps (·.engine.siteId) _ ?_ _ _,
    foldl_keeps (·.engine.groups) _ ?_ _ _, foldl_keeps (·.engine.intake) _ ?_ _ _,
    foldl_keeps (·.engine.lastSource) _ ?_ _ _, foldl_keeps (·.engine.mask) _ ?_ _ _,
    foldl_keeps (·.engine.reports) _ ?_ _ _, foldl_keeps (·.engine.droppedFlag) _ ?_ _ _,
    foldl_keeps (·.engine.counts) _ ?_ _ _⟩ <;>
    · intro b a
      first | (simp; done) | ((try dsimp only); (repeat' split) <;> simp)

@[simp] theorem State.handCue_keeps (c : Cell) :
    (s.handCue c).pending = s.pending ∧ (s.handCue c).pins = s.pins ∧ (s.handCue c).time = s.time ∧
    (s.handCue c).portA = s.portA ∧ (s.handCue c).portB = s.portB ∧ (s.handCue c).feeds = s.feeds ∧
    (s.handCue c).delay = s.delay ∧ (s.handCue c).emitter = s.emitter ∧ (s.handCue c).clips = s.clips ∧
    (s.handCue c).channels = s.channels ∧ (s.handCue c).counters = s.counters ∧ (s.handCue c).alarms = s.alarms ∧
    (s.handCue c).runner = s.runner ∧ (s.handCue c).out = s.out ∧ (s.handCue c).faultCount = s.faultCount ∧
    (s.handCue c).openingTaken = s.openingTaken ∧ (s.handCue c).eventDue = s.eventDue ∧
    (s.handCue c).slots.slots = s.slots.slots ∧ (s.handCue c).slots.queue = s.slots.queue ∧
    (s.handCue c).slots.minLead = s.slots.minLead ∧ (s.handCue c).slots.maxAhead = s.slots.maxAhead ∧
    (s.handCue c).splice.services = s.splice.services ∧ (s.handCue c).splice.schedules = s.splice.schedules ∧
    (s.handCue c).splice.breakMap = s.splice.breakMap ∧ (s.handCue c).splice.lastNoticed = s.splice.lastNoticed ∧
    (s.handCue c).splice.asRun = s.splice.asRun ∧ (s.handCue c).engine.siteId = s.engine.siteId ∧
    (s.handCue c).engine.groups = s.engine.groups ∧ (s.handCue c).engine.intake = s.engine.intake ∧
    (s.handCue c).engine.lastSource = s.engine.lastSource ∧ (s.handCue c).engine.mask = s.engine.mask ∧
    (s.handCue c).engine.reports = s.engine.reports ∧ (s.handCue c).engine.droppedFlag = s.engine.droppedFlag ∧
    (s.handCue c).engine.counts = s.engine.counts := by
  unfold State.handCue
  try dsimp only
  (repeat' split) <;> simp

@[simp] theorem State.handMgmt_keeps (c : Cell) :
    (s.handMgmt c).pending = s.pending ∧ (s.handMgmt c).pins = s.pins ∧ (s.handMgmt c).time = s.time ∧
    (s.handMgmt c).portA = s.portA ∧ (s.handMgmt c).portB = s.portB ∧ (s.handMgmt c).feeds = s.feeds ∧
    (s.handMgmt c).delay = s.delay ∧ (s.handMgmt c).emitter = s.emitter ∧ (s.handMgmt c).clips = s.clips ∧
    (s.handMgmt c).channels = s.channels ∧ (s.handMgmt c).splice = s.splice ∧ (s.handMgmt c).counters = s.counters ∧
    (s.handMgmt c).alarms = s.alarms ∧ (s.handMgmt c).runner = s.runner ∧ (s.handMgmt c).out = s.out ∧
    (s.handMgmt c).faultCount = s.faultCount ∧ (s.handMgmt c).openingTaken = s.openingTaken ∧
    (s.handMgmt c).eventDue = s.eventDue ∧ (s.handMgmt c).slots.slots = s.slots.slots ∧
    (s.handMgmt c).slots.queue = s.slots.queue ∧ (s.handMgmt c).slots.minLead = s.slots.minLead ∧
    (s.handMgmt c).slots.maxAhead = s.slots.maxAhead ∧ (s.handMgmt c).engine.siteId = s.engine.siteId ∧
    (s.handMgmt c).engine.groups = s.engine.groups ∧ (s.handMgmt c).engine.lastSource = s.engine.lastSource ∧
    (s.handMgmt c).engine.mask = s.engine.mask ∧ (s.handMgmt c).engine.reports = s.engine.reports ∧
    (s.handMgmt c).engine.droppedFlag = s.engine.droppedFlag := by
  unfold State.handMgmt
  try dsimp only
  (repeat' split) <;> simp

@[simp] theorem State.handLoad_keeps (c : Cell) :
    (s.handLoad c).pending = s.pending ∧ (s.handLoad c).pins = s.pins ∧ (s.handLoad c).time = s.time ∧
    (s.handLoad c).portA = s.portA ∧ (s.handLoad c).portB = s.portB ∧ (s.handLoad c).feeds = s.feeds ∧
    (s.handLoad c).delay = s.delay ∧ (s.handLoad c).emitter = s.emitter ∧ (s.handLoad c).channels = s.channels ∧
    (s.handLoad c).splice = s.splice ∧ (s.handLoad c).counters = s.counters ∧ (s.handLoad c).alarms = s.alarms ∧
    (s.handLoad c).runner = s.runner ∧ (s.handLoad c).engine = s.engine ∧ (s.handLoad c).out = s.out ∧
    (s.handLoad c).faultCount = s.faultCount ∧ (s.handLoad c).openingTaken = s.openingTaken ∧
    (s.handLoad c).eventDue = s.eventDue ∧ (s.handLoad c).slots.slots = s.slots.slots ∧
    (s.handLoad c).slots.queue = s.slots.queue ∧ (s.handLoad c).slots.minLead = s.slots.minLead ∧
    (s.handLoad c).slots.maxAhead = s.slots.maxAhead ∧ (s.handLoad c).clips.pages = s.clips.pages ∧
    (s.handLoad c).clips.reads = s.clips.reads ∧ (s.handLoad c).clips.record = s.clips.record ∧
    (s.handLoad c).clips.entries = s.clips.entries ∧ (s.handLoad c).clips.counts = s.clips.counts := by
  unfold State.handLoad
  try dsimp only
  (repeat' split) <;> simp

@[simp] theorem State.handOver_keeps (c : Cell) :
    (s.handOver c).pending = s.pending ∧ (s.handOver c).pins = s.pins ∧ (s.handOver c).time = s.time ∧
    (s.handOver c).portA = s.portA ∧ (s.handOver c).portB = s.portB ∧ (s.handOver c).feeds = s.feeds ∧
    (s.handOver c).delay = s.delay ∧ (s.handOver c).emitter = s.emitter ∧ (s.handOver c).channels = s.channels ∧
    (s.handOver c).counters = s.counters ∧ (s.handOver c).alarms = s.alarms ∧ (s.handOver c).runner = s.runner ∧
    (s.handOver c).out = s.out ∧ (s.handOver c).faultCount = s.faultCount ∧
    (s.handOver c).openingTaken = s.openingTaken ∧ (s.handOver c).eventDue = s.eventDue ∧
    (s.handOver c).slots.slots = s.slots.slots ∧ (s.handOver c).slots.queue = s.slots.queue ∧
    (s.handOver c).slots.minLead = s.slots.minLead ∧ (s.handOver c).slots.maxAhead = s.slots.maxAhead ∧
    (s.handOver c).clips.pages = s.clips.pages ∧ (s.handOver c).clips.reads = s.clips.reads ∧
    (s.handOver c).clips.record = s.clips.record ∧ (s.handOver c).clips.entries = s.clips.entries ∧
    (s.handOver c).splice.services = s.splice.services ∧ (s.handOver c).splice.schedules = s.splice.schedules ∧
    (s.handOver c).splice.breakMap = s.splice.breakMap ∧ (s.handOver c).splice.lastNoticed = s.splice.lastNoticed ∧
    (s.handOver c).splice.asRun = s.splice.asRun ∧ (s.handOver c).engine.siteId = s.engine.siteId ∧
    (s.handOver c).engine.groups = s.engine.groups ∧ (s.handOver c).engine.lastSource = s.engine.lastSource ∧
    (s.handOver c).engine.mask = s.engine.mask ∧ (s.handOver c).engine.reports = s.engine.reports ∧
    (s.handOver c).engine.droppedFlag = s.engine.droppedFlag := by
  unfold State.handOver
  try dsimp only
  (repeat' split) <;> simp

@[simp] theorem State.dispatch_keeps (i : Fin 256) (f : Feed) :
    (s.dispatch i f).pending = s.pending ∧ (s.dispatch i f).pins = s.pins ∧ (s.dispatch i f).time = s.time ∧
    (s.dispatch i f).portA = s.portA ∧ (s.dispatch i f).portB = s.portB ∧ (s.dispatch i f).feeds = s.feeds ∧
    (s.dispatch i f).delay = s.delay ∧ (s.dispatch i f).emitter = s.emitter ∧ (s.dispatch i f).channels = s.channels ∧
    (s.dispatch i f).counters = s.counters ∧ (s.dispatch i f).alarms = s.alarms ∧ (s.dispatch i f).runner = s.runner ∧
    (s.dispatch i f).out = s.out ∧ (s.dispatch i f).faultCount = s.faultCount ∧
    (s.dispatch i f).openingTaken = s.openingTaken ∧ (s.dispatch i f).eventDue = s.eventDue ∧
    (s.dispatch i f).slots.slots = s.slots.slots ∧ (s.dispatch i f).slots.queue = s.slots.queue ∧
    (s.dispatch i f).slots.minLead = s.slots.minLead ∧ (s.dispatch i f).slots.maxAhead = s.slots.maxAhead ∧
    (s.dispatch i f).clips.pages = s.clips.pages ∧ (s.dispatch i f).clips.reads = s.clips.reads ∧
    (s.dispatch i f).clips.record = s.clips.record ∧ (s.dispatch i f).clips.entries = s.clips.entries ∧
    (s.dispatch i f).splice.services = s.splice.services ∧ (s.dispatch i f).splice.schedules = s.splice.schedules ∧
    (s.dispatch i f).splice.breakMap = s.splice.breakMap ∧
    (s.dispatch i f).splice.lastNoticed = s.splice.lastNoticed ∧ (s.dispatch i f).splice.asRun = s.splice.asRun ∧
    (s.dispatch i f).engine.siteId = s.engine.siteId ∧ (s.dispatch i f).engine.groups = s.engine.groups ∧
    (s.dispatch i f).engine.lastSource = s.engine.lastSource ∧ (s.dispatch i f).engine.mask = s.engine.mask ∧
    (s.dispatch i f).engine.reports = s.engine.reports ∧
    (s.dispatch i f).engine.droppedFlag = s.engine.droppedFlag := by
  unfold State.dispatch
  refine ⟨foldl_keeps (·.pending) _ ?_ _ _, foldl_keeps (·.pins) _ ?_ _ _, foldl_keeps (·.time) _ ?_ _ _,
    foldl_keeps (·.portA) _ ?_ _ _, foldl_keeps (·.portB) _ ?_ _ _, foldl_keeps (·.feeds) _ ?_ _ _,
    foldl_keeps (·.delay) _ ?_ _ _, foldl_keeps (·.emitter) _ ?_ _ _, foldl_keeps (·.channels) _ ?_ _ _,
    foldl_keeps (·.counters) _ ?_ _ _, foldl_keeps (·.alarms) _ ?_ _ _, foldl_keeps (·.runner) _ ?_ _ _,
    foldl_keeps (·.out) _ ?_ _ _, foldl_keeps (·.faultCount) _ ?_ _ _, foldl_keeps (·.openingTaken) _ ?_ _ _, foldl_keeps (·.eventDue) _ ?_ _ _,
    foldl_keeps (·.slots.slots) _ ?_ _ _, foldl_keeps (·.slots.queue) _ ?_ _ _,
    foldl_keeps (·.slots.minLead) _ ?_ _ _, foldl_keeps (·.slots.maxAhead) _ ?_ _ _,
    foldl_keeps (·.clips.pages) _ ?_ _ _, foldl_keeps (·.clips.reads) _ ?_ _ _,
    foldl_keeps (·.clips.record) _ ?_ _ _, foldl_keeps (·.clips.entries) _ ?_ _ _,
    foldl_keeps (·.splice.services) _ ?_ _ _, foldl_keeps (·.splice.schedules) _ ?_ _ _,
    foldl_keeps (·.splice.breakMap) _ ?_ _ _, foldl_keeps (·.splice.lastNoticed) _ ?_ _ _,
    foldl_keeps (·.splice.asRun) _ ?_ _ _, foldl_keeps (·.engine.siteId) _ ?_ _ _,
    foldl_keeps (·.engine.groups) _ ?_ _ _, foldl_keeps (·.engine.lastSource) _ ?_ _ _,
    foldl_keeps (·.engine.mask) _ ?_ _ _, foldl_keeps (·.engine.reports) _ ?_ _ _,
    foldl_keeps (·.engine.droppedFlag) _ ?_ _ _⟩ <;>
    · intro b a
      first | (simp; done) | ((try dsimp only); (repeat' split) <;> simp)

@[simp] theorem State.enqueue_keeps (i : Fin 256) :
    (s.enqueue i).pending = s.pending ∧ (s.enqueue i).pins = s.pins ∧ (s.enqueue i).time = s.time ∧
    (s.enqueue i).feeds = s.feeds ∧ (s.enqueue i).delay = s.delay ∧ (s.enqueue i).emitter = s.emitter ∧
    (s.enqueue i).clips = s.clips ∧ (s.enqueue i).channels = s.channels ∧ (s.enqueue i).splice = s.splice ∧
    (s.enqueue i).counters = s.counters ∧ (s.enqueue i).alarms = s.alarms ∧ (s.enqueue i).runner = s.runner ∧
    (s.enqueue i).out = s.out ∧ (s.enqueue i).faultCount = s.faultCount ∧
    (s.enqueue i).openingTaken = s.openingTaken ∧ (s.enqueue i).eventDue = s.eventDue ∧
    (s.enqueue i).slots.minLead = s.slots.minLead ∧ (s.enqueue i).slots.maxAhead = s.slots.maxAhead ∧
    (s.enqueue i).engine.siteId = s.engine.siteId ∧ (s.enqueue i).engine.groups = s.engine.groups ∧
    (s.enqueue i).engine.intake = s.engine.intake ∧ (s.enqueue i).engine.lastSource = s.engine.lastSource ∧
    (s.enqueue i).engine.mask = s.engine.mask ∧ (s.enqueue i).engine.reports = s.engine.reports ∧
    (s.enqueue i).engine.droppedFlag = s.engine.droppedFlag ∧ (s.enqueue i).engine.counts = s.engine.counts := by
  unfold State.enqueue
  try dsimp only
  (repeat' split) <;> simp

@[simp] theorem State.reportBad_keeps (f : Feed) (r : CopyRef) (n : Nat) :
    (s.reportBad f r n).pending = s.pending ∧ (s.reportBad f r n).pins = s.pins ∧ (s.reportBad f r n).time = s.time ∧
    (s.reportBad f r n).feeds = s.feeds ∧ (s.reportBad f r n).delay = s.delay ∧
    (s.reportBad f r n).emitter = s.emitter ∧ (s.reportBad f r n).clips = s.clips ∧
    (s.reportBad f r n).channels = s.channels ∧ (s.reportBad f r n).splice = s.splice ∧
    (s.reportBad f r n).counters = s.counters ∧ (s.reportBad f r n).alarms = s.alarms ∧
    (s.reportBad f r n).runner = s.runner ∧ (s.reportBad f r n).out = s.out ∧
    (s.reportBad f r n).faultCount = s.faultCount ∧ (s.reportBad f r n).openingTaken = s.openingTaken ∧
    (s.reportBad f r n).eventDue = s.eventDue ∧ (s.reportBad f r n).slots.minLead = s.slots.minLead ∧
    (s.reportBad f r n).slots.maxAhead = s.slots.maxAhead ∧ (s.reportBad f r n).slots.queue = s.slots.queue ∧
    (s.reportBad f r n).engine.siteId = s.engine.siteId ∧ (s.reportBad f r n).engine.groups = s.engine.groups ∧
    (s.reportBad f r n).engine.intake = s.engine.intake ∧
    (s.reportBad f r n).engine.lastSource = s.engine.lastSource ∧ (s.reportBad f r n).engine.mask = s.engine.mask ∧
    (s.reportBad f r n).engine.reports = s.engine.reports ∧
    (s.reportBad f r n).engine.droppedFlag = s.engine.droppedFlag ∧
    (s.reportBad f r n).engine.counts = s.engine.counts := by
  unfold State.reportBad
  try dsimp only
  (repeat' split) <;> simp

@[simp] theorem State.slotReady_keeps (i : Fin 256) (f : Feed) :
    (s.slotReady i f).pending = s.pending ∧ (s.slotReady i f).pins = s.pins ∧ (s.slotReady i f).time = s.time ∧
    (s.slotReady i f).feeds = s.feeds ∧ (s.slotReady i f).delay = s.delay ∧ (s.slotReady i f).emitter = s.emitter ∧
    (s.slotReady i f).channels = s.channels ∧ (s.slotReady i f).counters = s.counters ∧
    (s.slotReady i f).alarms = s.alarms ∧ (s.slotReady i f).runner = s.runner ∧ (s.slotReady i f).out = s.out ∧
    (s.slotReady i f).faultCount = s.faultCount ∧ (s.slotReady i f).openingTaken = s.openingTaken ∧
    (s.slotReady i f).eventDue = s.eventDue ∧ (s.slotReady i f).slots.minLead = s.slots.minLead ∧
    (s.slotReady i f).slots.maxAhead = s.slots.maxAhead ∧ (s.slotReady i f).clips.pages = s.clips.pages ∧
    (s.slotReady i f).clips.reads = s.clips.reads ∧ (s.slotReady i f).clips.record = s.clips.record ∧
    (s.slotReady i f).clips.entries = s.clips.entries ∧ (s.slotReady i f).splice.services = s.splice.services ∧
    (s.slotReady i f).splice.schedules = s.splice.schedules ∧ (s.slotReady i f).splice.breakMap = s.splice.breakMap ∧
    (s.slotReady i f).splice.lastNoticed = s.splice.lastNoticed ∧ (s.slotReady i f).splice.asRun = s.splice.asRun ∧
    (s.slotReady i f).engine.siteId = s.engine.siteId ∧ (s.slotReady i f).engine.groups = s.engine.groups ∧
    (s.slotReady i f).engine.lastSource = s.engine.lastSource ∧ (s.slotReady i f).engine.mask = s.engine.mask ∧
    (s.slotReady i f).engine.reports = s.engine.reports ∧
    (s.slotReady i f).engine.droppedFlag = s.engine.droppedFlag := by
  unfold State.slotReady
  try dsimp only
  (repeat' split) <;> simp

@[simp] theorem State.slotTooLate_keeps (i : Fin 256) (f : Feed) :
    (s.slotTooLate i f).pending = s.pending ∧ (s.slotTooLate i f).pins = s.pins ∧ (s.slotTooLate i f).time = s.time ∧
    (s.slotTooLate i f).feeds = s.feeds ∧ (s.slotTooLate i f).delay = s.delay ∧
    (s.slotTooLate i f).emitter = s.emitter ∧ (s.slotTooLate i f).channels = s.channels ∧
    (s.slotTooLate i f).counters = s.counters ∧ (s.slotTooLate i f).alarms = s.alarms ∧
    (s.slotTooLate i f).runner = s.runner ∧ (s.slotTooLate i f).out = s.out ∧
    (s.slotTooLate i f).faultCount = s.faultCount ∧ (s.slotTooLate i f).openingTaken = s.openingTaken ∧
    (s.slotTooLate i f).eventDue = s.eventDue ∧ (s.slotTooLate i f).slots.minLead = s.slots.minLead ∧
    (s.slotTooLate i f).slots.maxAhead = s.slots.maxAhead ∧ (s.slotTooLate i f).clips.pages = s.clips.pages ∧
    (s.slotTooLate i f).clips.reads = s.clips.reads ∧ (s.slotTooLate i f).clips.record = s.clips.record ∧
    (s.slotTooLate i f).clips.entries = s.clips.entries ∧ (s.slotTooLate i f).splice.services = s.splice.services ∧
    (s.slotTooLate i f).splice.schedules = s.splice.schedules ∧
    (s.slotTooLate i f).splice.breakMap = s.splice.breakMap ∧
    (s.slotTooLate i f).splice.lastNoticed = s.splice.lastNoticed ∧
    (s.slotTooLate i f).splice.asRun = s.splice.asRun ∧ (s.slotTooLate i f).slots.queue = s.slots.queue ∧
    (s.slotTooLate i f).engine.siteId = s.engine.siteId ∧ (s.slotTooLate i f).engine.groups = s.engine.groups ∧
    (s.slotTooLate i f).engine.lastSource = s.engine.lastSource ∧ (s.slotTooLate i f).engine.mask = s.engine.mask ∧
    (s.slotTooLate i f).engine.reports = s.engine.reports ∧
    (s.slotTooLate i f).engine.droppedFlag = s.engine.droppedFlag := by
  unfold State.slotTooLate
  try dsimp only
  (repeat' split) <;> simp

@[simp] theorem State.reportGood_keeps (f : Feed) (r : CopyRef) :
    (s.reportGood f r).pending = s.pending ∧ (s.reportGood f r).pins = s.pins ∧ (s.reportGood f r).time = s.time ∧
    (s.reportGood f r).feeds = s.feeds ∧ (s.reportGood f r).delay = s.delay ∧ (s.reportGood f r).emitter = s.emitter ∧
    (s.reportGood f r).channels = s.channels ∧ (s.reportGood f r).counters = s.counters ∧
    (s.reportGood f r).alarms = s.alarms ∧ (s.reportGood f r).runner = s.runner ∧ (s.reportGood f r).out = s.out ∧
    (s.reportGood f r).faultCount = s.faultCount ∧ (s.reportGood f r).openingTaken = s.openingTaken ∧
    (s.reportGood f r).eventDue = s.eventDue ∧ (s.reportGood f r).slots.minLead = s.slots.minLead ∧
    (s.reportGood f r).slots.maxAhead = s.slots.maxAhead ∧ (s.reportGood f r).clips.pages = s.clips.pages ∧
    (s.reportGood f r).clips.reads = s.clips.reads ∧ (s.reportGood f r).clips.record = s.clips.record ∧
    (s.reportGood f r).clips.entries = s.clips.entries ∧ (s.reportGood f r).splice.services = s.splice.services ∧
    (s.reportGood f r).splice.schedules = s.splice.schedules ∧
    (s.reportGood f r).splice.breakMap = s.splice.breakMap ∧
    (s.reportGood f r).splice.lastNoticed = s.splice.lastNoticed ∧ (s.reportGood f r).splice.asRun = s.splice.asRun ∧
    (s.reportGood f r).engine.siteId = s.engine.siteId ∧ (s.reportGood f r).engine.groups = s.engine.groups ∧
    (s.reportGood f r).engine.lastSource = s.engine.lastSource ∧ (s.reportGood f r).engine.mask = s.engine.mask ∧
    (s.reportGood f r).engine.reports = s.engine.reports ∧
    (s.reportGood f r).engine.droppedFlag = s.engine.droppedFlag := by
  unfold State.reportGood
  try dsimp only
  (repeat' split) <;> simp

@[simp] theorem State.compareOffer_keeps (f : Feed) (b : Half) (x : Stamp) (n : Nat) :
    (s.compareOffer f b x n).2.pending = s.pending ∧ (s.compareOffer f b x n).2.pins = s.pins ∧
    (s.compareOffer f b x n).2.time = s.time ∧ (s.compareOffer f b x n).2.portA = s.portA ∧
    (s.compareOffer f b x n).2.portB = s.portB ∧ (s.compareOffer f b x n).2.feeds = s.feeds ∧
    (s.compareOffer f b x n).2.delay = s.delay ∧ (s.compareOffer f b x n).2.emitter = s.emitter ∧
    (s.compareOffer f b x n).2.clips = s.clips ∧ (s.compareOffer f b x n).2.channels = s.channels ∧
    (s.compareOffer f b x n).2.splice = s.splice ∧ (s.compareOffer f b x n).2.counters = s.counters ∧
    (s.compareOffer f b x n).2.alarms = s.alarms ∧ (s.compareOffer f b x n).2.runner = s.runner ∧
    (s.compareOffer f b x n).2.out = s.out ∧ (s.compareOffer f b x n).2.faultCount = s.faultCount ∧
    (s.compareOffer f b x n).2.openingTaken = s.openingTaken ∧ (s.compareOffer f b x n).2.eventDue = s.eventDue ∧
    (s.compareOffer f b x n).2.slots.minLead = s.slots.minLead ∧
    (s.compareOffer f b x n).2.slots.maxAhead = s.slots.maxAhead ∧
    (s.compareOffer f b x n).2.slots.queue = s.slots.queue ∧
    (s.compareOffer f b x n).2.engine.siteId = s.engine.siteId ∧
    (s.compareOffer f b x n).2.engine.groups = s.engine.groups ∧
    (s.compareOffer f b x n).2.engine.intake = s.engine.intake ∧
    (s.compareOffer f b x n).2.engine.lastSource = s.engine.lastSource ∧
    (s.compareOffer f b x n).2.engine.mask = s.engine.mask ∧
    (s.compareOffer f b x n).2.engine.reports = s.engine.reports ∧
    (s.compareOffer f b x n).2.engine.droppedFlag = s.engine.droppedFlag ∧
    (s.compareOffer f b x n).2.engine.counts = s.engine.counts := by
  unfold State.compareOffer
  try dsimp only
  (repeat' split) <;> simp

@[simp] theorem State.offer_keeps (f : Feed) (b : Half) (x : Stamp) (n : Nat) :
    (s.offer f b x n).2.pending = s.pending ∧ (s.offer f b x n).2.pins = s.pins ∧ (s.offer f b x n).2.time = s.time ∧
    (s.offer f b x n).2.feeds = s.feeds ∧ (s.offer f b x n).2.delay = s.delay ∧
    (s.offer f b x n).2.emitter = s.emitter ∧ (s.offer f b x n).2.clips = s.clips ∧
    (s.offer f b x n).2.channels = s.channels ∧ (s.offer f b x n).2.splice = s.splice ∧
    (s.offer f b x n).2.counters = s.counters ∧ (s.offer f b x n).2.alarms = s.alarms ∧
    (s.offer f b x n).2.runner = s.runner ∧ (s.offer f b x n).2.out = s.out ∧
    (s.offer f b x n).2.faultCount = s.faultCount ∧ (s.offer f b x n).2.openingTaken = s.openingTaken ∧
    (s.offer f b x n).2.eventDue = s.eventDue ∧ (s.offer f b x n).2.slots.minLead = s.slots.minLead ∧
    (s.offer f b x n).2.slots.maxAhead = s.slots.maxAhead ∧ (s.offer f b x n).2.slots.queue = s.slots.queue ∧
    (s.offer f b x n).2.engine.siteId = s.engine.siteId ∧ (s.offer f b x n).2.engine.groups = s.engine.groups ∧
    (s.offer f b x n).2.engine.intake = s.engine.intake ∧
    (s.offer f b x n).2.engine.lastSource = s.engine.lastSource ∧ (s.offer f b x n).2.engine.mask = s.engine.mask ∧
    (s.offer f b x n).2.engine.reports = s.engine.reports ∧
    (s.offer f b x n).2.engine.droppedFlag = s.engine.droppedFlag ∧
    (s.offer f b x n).2.engine.counts = s.engine.counts := by
  simp only [State.offer]
  (repeat' split) <;> simp

/-! ### the feed ports -/

@[simp] theorem State.endCopy_keeps (f : Feed) :
    (s.endCopy f).pending = s.pending ∧ (s.endCopy f).pins = s.pins ∧ (s.endCopy f).time = s.time ∧
    (s.endCopy f).feeds = s.feeds ∧ (s.endCopy f).delay = s.delay ∧ (s.endCopy f).emitter = s.emitter ∧
    (s.endCopy f).clips = s.clips ∧ (s.endCopy f).channels = s.channels ∧ (s.endCopy f).splice = s.splice ∧
    (s.endCopy f).counters = s.counters ∧ (s.endCopy f).alarms = s.alarms ∧ (s.endCopy f).runner = s.runner ∧
    (s.endCopy f).out = s.out ∧ (s.endCopy f).faultCount = s.faultCount ∧
    (s.endCopy f).openingTaken = s.openingTaken ∧ (s.endCopy f).eventDue = s.eventDue ∧
    (s.endCopy f).slots.minLead = s.slots.minLead ∧ (s.endCopy f).slots.maxAhead = s.slots.maxAhead ∧
    (s.endCopy f).slots.queue = s.slots.queue ∧ (s.endCopy f).engine.siteId = s.engine.siteId ∧
    (s.endCopy f).engine.groups = s.engine.groups ∧ (s.endCopy f).engine.intake = s.engine.intake ∧
    (s.endCopy f).engine.lastSource = s.engine.lastSource ∧ (s.endCopy f).engine.mask = s.engine.mask ∧
    (s.endCopy f).engine.reports = s.engine.reports ∧ (s.endCopy f).engine.droppedFlag = s.engine.droppedFlag ∧
    (s.endCopy f).engine.counts = s.engine.counts := by
  unfold State.endCopy
  try dsimp only
  (repeat' split) <;> simp

@[simp] theorem State.endShort_keeps (f : Feed) :
    (s.endShort f).pending = s.pending ∧ (s.endShort f).pins = s.pins ∧ (s.endShort f).time = s.time ∧
    (s.endShort f).feeds = s.feeds ∧ (s.endShort f).delay = s.delay ∧ (s.endShort f).emitter = s.emitter ∧
    (s.endShort f).clips = s.clips ∧ (s.endShort f).channels = s.channels ∧ (s.endShort f).splice = s.splice ∧
    (s.endShort f).counters = s.counters ∧ (s.endShort f).alarms = s.alarms ∧ (s.endShort f).runner = s.runner ∧
    (s.endShort f).out = s.out ∧ (s.endShort f).faultCount = s.faultCount ∧
    (s.endShort f).openingTaken = s.openingTaken ∧ (s.endShort f).eventDue = s.eventDue ∧
    (s.endShort f).slots.minLead = s.slots.minLead ∧ (s.endShort f).slots.maxAhead = s.slots.maxAhead ∧
    (s.endShort f).slots.queue = s.slots.queue ∧ (s.endShort f).engine.siteId = s.engine.siteId ∧
    (s.endShort f).engine.groups = s.engine.groups ∧ (s.endShort f).engine.intake = s.engine.intake ∧
    (s.endShort f).engine.lastSource = s.engine.lastSource ∧ (s.endShort f).engine.mask = s.engine.mask ∧
    (s.endShort f).engine.reports = s.engine.reports ∧ (s.endShort f).engine.droppedFlag = s.engine.droppedFlag ∧
    (s.endShort f).engine.counts = s.engine.counts := by
  unfold State.endShort
  try dsimp only
  (repeat' split) <;> simp

@[simp] theorem State.writeCell_keeps (f : Feed) (r : CopyRef) (c : Cell) :
    (s.writeCell f r c).pending = s.pending ∧ (s.writeCell f r c).pins = s.pins ∧ (s.writeCell f r c).time = s.time ∧
    (s.writeCell f r c).feeds = s.feeds ∧ (s.writeCell f r c).emitter = s.emitter ∧
    (s.writeCell f r c).clips = s.clips ∧ (s.writeCell f r c).channels = s.channels ∧
    (s.writeCell f r c).splice = s.splice ∧ (s.writeCell f r c).counters = s.counters ∧
    (s.writeCell f r c).alarms = s.alarms ∧ (s.writeCell f r c).runner = s.runner ∧
    (s.writeCell f r c).engine = s.engine ∧ (s.writeCell f r c).out = s.out ∧
    (s.writeCell f r c).faultCount = s.faultCount ∧ (s.writeCell f r c).openingTaken = s.openingTaken ∧
    (s.writeCell f r c).eventDue = s.eventDue ∧ (s.writeCell f r c).slots.minLead = s.slots.minLead ∧
    (s.writeCell f r c).slots.maxAhead = s.slots.maxAhead ∧ (s.writeCell f r c).slots.queue = s.slots.queue ∧
    (s.writeCell f r c).slots.counts = s.slots.counts := by
  unfold State.writeCell
  try dsimp only
  (repeat' split) <;> simp

@[simp] theorem State.completeCopy_keeps (f : Feed) (r : CopyRef) :
    (s.completeCopy f r).pending = s.pending ∧ (s.completeCopy f r).pins = s.pins ∧
    (s.completeCopy f r).time = s.time ∧ (s.completeCopy f r).feeds = s.feeds ∧ (s.completeCopy f r).delay = s.delay ∧
    (s.completeCopy f r).emitter = s.emitter ∧ (s.completeCopy f r).channels = s.channels ∧
    (s.completeCopy f r).counters = s.counters ∧ (s.completeCopy f r).alarms = s.alarms ∧
    (s.completeCopy f r).runner = s.runner ∧ (s.completeCopy f r).out = s.out ∧
    (s.completeCopy f r).faultCount = s.faultCount ∧ (s.completeCopy f r).openingTaken = s.openingTaken ∧
    (s.completeCopy f r).eventDue = s.eventDue ∧ (s.completeCopy f r).slots.minLead = s.slots.minLead ∧
    (s.completeCopy f r).slots.maxAhead = s.slots.maxAhead ∧ (s.completeCopy f r).clips.pages = s.clips.pages ∧
    (s.completeCopy f r).clips.reads = s.clips.reads ∧ (s.completeCopy f r).clips.record = s.clips.record ∧
    (s.completeCopy f r).clips.entries = s.clips.entries ∧ (s.completeCopy f r).splice.services = s.splice.services ∧
    (s.completeCopy f r).splice.schedules = s.splice.schedules ∧
    (s.completeCopy f r).splice.breakMap = s.splice.breakMap ∧
    (s.completeCopy f r).splice.lastNoticed = s.splice.lastNoticed ∧
    (s.completeCopy f r).splice.asRun = s.splice.asRun ∧ (s.completeCopy f r).engine.siteId = s.engine.siteId ∧
    (s.completeCopy f r).engine.groups = s.engine.groups ∧
    (s.completeCopy f r).engine.lastSource = s.engine.lastSource ∧ (s.completeCopy f r).engine.mask = s.engine.mask ∧
    (s.completeCopy f r).engine.reports = s.engine.reports ∧
    (s.completeCopy f r).engine.droppedFlag = s.engine.droppedFlag := by
  unfold State.completeCopy
  try dsimp only
  (repeat' split) <;> simp

@[simp] theorem State.faultCell_keeps (f : Feed) (r : CopyRef) (c : Cell) :
    (s.faultCell f r c).pending = s.pending ∧ (s.faultCell f r c).pins = s.pins ∧ (s.faultCell f r c).time = s.time ∧
    (s.faultCell f r c).portA = s.portA ∧ (s.faultCell f r c).portB = s.portB ∧ (s.faultCell f r c).feeds = s.feeds ∧
    (s.faultCell f r c).slots = s.slots ∧ (s.faultCell f r c).emitter = s.emitter ∧
    (s.faultCell f r c).clips = s.clips ∧ (s.faultCell f r c).channels = s.channels ∧
    (s.faultCell f r c).splice = s.splice ∧ (s.faultCell f r c).counters = s.counters ∧
    (s.faultCell f r c).alarms = s.alarms ∧ (s.faultCell f r c).runner = s.runner ∧
    (s.faultCell f r c).engine = s.engine ∧ (s.faultCell f r c).out = s.out ∧
    (s.faultCell f r c).openingTaken = s.openingTaken ∧ (s.faultCell f r c).eventDue = s.eventDue := by
  unfold State.faultCell
  try dsimp only
  (repeat' split) <;> simp

@[simp] theorem State.blockCell_keeps (f : Feed) (c : Cell) (w : Bool) :
    (s.blockCell f c w).pending = s.pending ∧ (s.blockCell f c w).pins = s.pins ∧ (s.blockCell f c w).time = s.time ∧
    (s.blockCell f c w).feeds = s.feeds ∧ (s.blockCell f c w).emitter = s.emitter ∧
    (s.blockCell f c w).channels = s.channels ∧ (s.blockCell f c w).counters = s.counters ∧
    (s.blockCell f c w).alarms = s.alarms ∧ (s.blockCell f c w).runner = s.runner ∧ (s.blockCell f c w).out = s.out ∧
    (s.blockCell f c w).openingTaken = s.openingTaken ∧ (s.blockCell f c w).eventDue = s.eventDue ∧
    (s.blockCell f c w).slots.minLead = s.slots.minLead ∧ (s.blockCell f c w).slots.maxAhead = s.slots.maxAhead ∧
    (s.blockCell f c w).clips.pages = s.clips.pages ∧ (s.blockCell f c w).clips.reads = s.clips.reads ∧
    (s.blockCell f c w).clips.record = s.clips.record ∧ (s.blockCell f c w).clips.entries = s.clips.entries ∧
    (s.blockCell f c w).splice.services = s.splice.services ∧
    (s.blockCell f c w).splice.schedules = s.splice.schedules ∧
    (s.blockCell f c w).splice.breakMap = s.splice.breakMap ∧
    (s.blockCell f c w).splice.lastNoticed = s.splice.lastNoticed ∧
    (s.blockCell f c w).splice.asRun = s.splice.asRun ∧ (s.blockCell f c w).engine.siteId = s.engine.siteId ∧
    (s.blockCell f c w).engine.groups = s.engine.groups ∧
    (s.blockCell f c w).engine.lastSource = s.engine.lastSource ∧ (s.blockCell f c w).engine.mask = s.engine.mask ∧
    (s.blockCell f c w).engine.reports = s.engine.reports ∧
    (s.blockCell f c w).engine.droppedFlag = s.engine.droppedFlag := by
  unfold State.blockCell
  try dsimp only
  (repeat' split) <;> simp

@[simp] theorem State.trackFeed_keeps (f : Feed) :
    (s.trackFeed f).pending = s.pending ∧ (s.trackFeed f).pins = s.pins ∧ (s.trackFeed f).time = s.time ∧
    (s.trackFeed f).feeds = s.feeds ∧ (s.trackFeed f).slots = s.slots ∧ (s.trackFeed f).delay = s.delay ∧
    (s.trackFeed f).emitter = s.emitter ∧ (s.trackFeed f).clips = s.clips ∧ (s.trackFeed f).channels = s.channels ∧
    (s.trackFeed f).splice = s.splice ∧ (s.trackFeed f).counters = s.counters ∧ (s.trackFeed f).alarms = s.alarms ∧
    (s.trackFeed f).runner = s.runner ∧ (s.trackFeed f).out = s.out ∧ (s.trackFeed f).faultCount = s.faultCount ∧
    (s.trackFeed f).openingTaken = s.openingTaken ∧ (s.trackFeed f).eventDue = s.eventDue ∧
    (s.trackFeed f).engine.siteId = s.engine.siteId ∧ (s.trackFeed f).engine.groups = s.engine.groups ∧
    (s.trackFeed f).engine.intake = s.engine.intake ∧ (s.trackFeed f).engine.lastSource = s.engine.lastSource ∧
    (s.trackFeed f).engine.mask = s.engine.mask ∧ (s.trackFeed f).engine.reports = s.engine.reports ∧
    (s.trackFeed f).engine.droppedFlag = s.engine.droppedFlag ∧ (s.trackFeed f).engine.counts = s.engine.counts := by
  unfold State.trackFeed
  try dsimp only
  (repeat' split) <;> simp

@[simp] theorem State.takeAnswer_keeps (f : Feed) (m : Timing) (a : OfferAnswer × State) :
    (State.takeAnswer f m a).pending = a.2.pending ∧ (State.takeAnswer f m a).pins = a.2.pins ∧
    (State.takeAnswer f m a).time = a.2.time ∧ (State.takeAnswer f m a).feeds = a.2.feeds ∧
    (State.takeAnswer f m a).slots = a.2.slots ∧ (State.takeAnswer f m a).delay = a.2.delay ∧
    (State.takeAnswer f m a).emitter = a.2.emitter ∧ (State.takeAnswer f m a).clips = a.2.clips ∧
    (State.takeAnswer f m a).channels = a.2.channels ∧ (State.takeAnswer f m a).splice = a.2.splice ∧
    (State.takeAnswer f m a).counters = a.2.counters ∧ (State.takeAnswer f m a).alarms = a.2.alarms ∧
    (State.takeAnswer f m a).runner = a.2.runner ∧ (State.takeAnswer f m a).engine = a.2.engine ∧
    (State.takeAnswer f m a).out = a.2.out ∧ (State.takeAnswer f m a).faultCount = a.2.faultCount ∧
    (State.takeAnswer f m a).openingTaken = a.2.openingTaken ∧ (State.takeAnswer f m a).eventDue = a.2.eventDue := by
  unfold State.takeAnswer
  try dsimp only
  (repeat' split) <;> simp

@[simp] theorem State.makeOffer_keeps (f : Feed) (m : Timing) :
    (s.makeOffer f m).pending = s.pending ∧ (s.makeOffer f m).pins = s.pins ∧ (s.makeOffer f m).time = s.time ∧
    (s.makeOffer f m).feeds = s.feeds ∧ (s.makeOffer f m).delay = s.delay ∧ (s.makeOffer f m).emitter = s.emitter ∧
    (s.makeOffer f m).clips = s.clips ∧ (s.makeOffer f m).channels = s.channels ∧
    (s.makeOffer f m).splice = s.splice ∧ (s.makeOffer f m).counters = s.counters ∧
    (s.makeOffer f m).alarms = s.alarms ∧ (s.makeOffer f m).runner = s.runner ∧ (s.makeOffer f m).out = s.out ∧
    (s.makeOffer f m).faultCount = s.faultCount ∧ (s.makeOffer f m).openingTaken = s.openingTaken ∧
    (s.makeOffer f m).eventDue = s.eventDue ∧ (s.makeOffer f m).slots.minLead = s.slots.minLead ∧
    (s.makeOffer f m).slots.maxAhead = s.slots.maxAhead ∧ (s.makeOffer f m).slots.queue = s.slots.queue ∧
    (s.makeOffer f m).engine.siteId = s.engine.siteId ∧ (s.makeOffer f m).engine.groups = s.engine.groups ∧
    (s.makeOffer f m).engine.intake = s.engine.intake ∧ (s.makeOffer f m).engine.lastSource = s.engine.lastSource ∧
    (s.makeOffer f m).engine.mask = s.engine.mask ∧ (s.makeOffer f m).engine.reports = s.engine.reports ∧
    (s.makeOffer f m).engine.droppedFlag = s.engine.droppedFlag ∧
    (s.makeOffer f m).engine.counts = s.engine.counts := by
  unfold State.makeOffer
  simp

@[simp] theorem State.testTiming_keeps (f : Feed) (m : Timing) :
    (s.testTiming f m).pending = s.pending ∧ (s.testTiming f m).pins = s.pins ∧ (s.testTiming f m).time = s.time ∧
    (s.testTiming f m).feeds = s.feeds ∧ (s.testTiming f m).delay = s.delay ∧ (s.testTiming f m).emitter = s.emitter ∧
    (s.testTiming f m).clips = s.clips ∧ (s.testTiming f m).channels = s.channels ∧
    (s.testTiming f m).splice = s.splice ∧ (s.testTiming f m).counters = s.counters ∧
    (s.testTiming f m).alarms = s.alarms ∧ (s.testTiming f m).runner = s.runner ∧ (s.testTiming f m).out = s.out ∧
    (s.testTiming f m).faultCount = s.faultCount ∧ (s.testTiming f m).openingTaken = s.openingTaken ∧
    (s.testTiming f m).eventDue = s.eventDue ∧ (s.testTiming f m).slots.minLead = s.slots.minLead ∧
    (s.testTiming f m).slots.maxAhead = s.slots.maxAhead ∧ (s.testTiming f m).slots.queue = s.slots.queue ∧
    (s.testTiming f m).engine.siteId = s.engine.siteId ∧ (s.testTiming f m).engine.groups = s.engine.groups ∧
    (s.testTiming f m).engine.intake = s.engine.intake ∧ (s.testTiming f m).engine.lastSource = s.engine.lastSource ∧
    (s.testTiming f m).engine.mask = s.engine.mask ∧ (s.testTiming f m).engine.reports = s.engine.reports ∧
    (s.testTiming f m).engine.droppedFlag = s.engine.droppedFlag ∧
    (s.testTiming f m).engine.counts = s.engine.counts := by
  unfold State.testTiming
  try dsimp only
  (repeat' split) <;> simp

@[simp] theorem State.timingCell_keeps (f : Feed) (c : Cell) :
    (s.timingCell f c).pending = s.pending ∧ (s.timingCell f c).pins = s.pins ∧ (s.timingCell f c).time = s.time ∧
    (s.timingCell f c).feeds = s.feeds ∧ (s.timingCell f c).delay = s.delay ∧ (s.timingCell f c).emitter = s.emitter ∧
    (s.timingCell f c).clips = s.clips ∧ (s.timingCell f c).channels = s.channels ∧
    (s.timingCell f c).splice = s.splice ∧ (s.timingCell f c).counters = s.counters ∧
    (s.timingCell f c).alarms = s.alarms ∧ (s.timingCell f c).runner = s.runner ∧ (s.timingCell f c).out = s.out ∧
    (s.timingCell f c).faultCount = s.faultCount ∧ (s.timingCell f c).openingTaken = s.openingTaken ∧
    (s.timingCell f c).eventDue = s.eventDue ∧ (s.timingCell f c).slots.minLead = s.slots.minLead ∧
    (s.timingCell f c).slots.maxAhead = s.slots.maxAhead ∧ (s.timingCell f c).slots.queue = s.slots.queue ∧
    (s.timingCell f c).engine.siteId = s.engine.siteId ∧ (s.timingCell f c).engine.groups = s.engine.groups ∧
    (s.timingCell f c).engine.intake = s.engine.intake ∧ (s.timingCell f c).engine.lastSource = s.engine.lastSource ∧
    (s.timingCell f c).engine.mask = s.engine.mask ∧ (s.timingCell f c).engine.reports = s.engine.reports ∧
    (s.timingCell f c).engine.droppedFlag = s.engine.droppedFlag ∧
    (s.timingCell f c).engine.counts = s.engine.counts := by
  unfold State.timingCell
  try dsimp only
  (repeat' split) <;> simp

@[simp] theorem State.imageArrives_keeps (f : Feed) (c : Cell) (w : Bool) :
    (s.imageArrives f c w).pending = s.pending ∧ (s.imageArrives f c w).pins = s.pins ∧
    (s.imageArrives f c w).time = s.time ∧ (s.imageArrives f c w).feeds = s.feeds ∧
    (s.imageArrives f c w).emitter = s.emitter ∧ (s.imageArrives f c w).channels = s.channels ∧
    (s.imageArrives f c w).counters = s.counters ∧ (s.imageArrives f c w).alarms = s.alarms ∧
    (s.imageArrives f c w).runner = s.runner ∧ (s.imageArrives f c w).out = s.out ∧
    (s.imageArrives f c w).openingTaken = s.openingTaken ∧ (s.imageArrives f c w).eventDue = s.eventDue ∧
    (s.imageArrives f c w).slots.minLead = s.slots.minLead ∧
    (s.imageArrives f c w).slots.maxAhead = s.slots.maxAhead ∧ (s.imageArrives f c w).clips.pages = s.clips.pages ∧
    (s.imageArrives f c w).clips.reads = s.clips.reads ∧ (s.imageArrives f c w).clips.record = s.clips.record ∧
    (s.imageArrives f c w).clips.entries = s.clips.entries ∧
    (s.imageArrives f c w).splice.services = s.splice.services ∧
    (s.imageArrives f c w).splice.schedules = s.splice.schedules ∧
    (s.imageArrives f c w).splice.breakMap = s.splice.breakMap ∧
    (s.imageArrives f c w).splice.lastNoticed = s.splice.lastNoticed ∧
    (s.imageArrives f c w).splice.asRun = s.splice.asRun ∧ (s.imageArrives f c w).engine.siteId = s.engine.siteId ∧
    (s.imageArrives f c w).engine.groups = s.engine.groups ∧
    (s.imageArrives f c w).engine.lastSource = s.engine.lastSource ∧
    (s.imageArrives f c w).engine.mask = s.engine.mask ∧ (s.imageArrives f c w).engine.reports = s.engine.reports ∧
    (s.imageArrives f c w).engine.droppedFlag = s.engine.droppedFlag := by
  unfold State.imageArrives
  try dsimp only
  (repeat' split) <;> simp

@[simp] theorem State.cellArrives_keeps (f : Feed) (a : Arrival) (w : Bool) :
    (s.cellArrives f a w).pending = s.pending ∧ (s.cellArrives f a w).pins = s.pins ∧
    (s.cellArrives f a w).time = s.time ∧ (s.cellArrives f a w).feeds = s.feeds ∧
    (s.cellArrives f a w).emitter = s.emitter ∧ (s.cellArrives f a w).channels = s.channels ∧
    (s.cellArrives f a w).counters = s.counters ∧ (s.cellArrives f a w).alarms = s.alarms ∧
    (s.cellArrives f a w).runner = s.runner ∧ (s.cellArrives f a w).out = s.out ∧
    (s.cellArrives f a w).openingTaken = s.openingTaken ∧ (s.cellArrives f a w).eventDue = s.eventDue ∧
    (s.cellArrives f a w).slots.minLead = s.slots.minLead ∧ (s.cellArrives f a w).slots.maxAhead = s.slots.maxAhead ∧
    (s.cellArrives f a w).clips.pages = s.clips.pages ∧ (s.cellArrives f a w).clips.reads = s.clips.reads ∧
    (s.cellArrives f a w).clips.record = s.clips.record ∧ (s.cellArrives f a w).clips.entries = s.clips.entries ∧
    (s.cellArrives f a w).splice.services = s.splice.services ∧
    (s.cellArrives f a w).splice.schedules = s.splice.schedules ∧
    (s.cellArrives f a w).splice.breakMap = s.splice.breakMap ∧
    (s.cellArrives f a w).splice.lastNoticed = s.splice.lastNoticed ∧
    (s.cellArrives f a w).splice.asRun = s.splice.asRun ∧ (s.cellArrives f a w).engine.siteId = s.engine.siteId ∧
    (s.cellArrives f a w).engine.groups = s.engine.groups ∧
    (s.cellArrives f a w).engine.lastSource = s.engine.lastSource ∧
    (s.cellArrives f a w).engine.mask = s.engine.mask ∧ (s.cellArrives f a w).engine.reports = s.engine.reports ∧
    (s.cellArrives f a w).engine.droppedFlag = s.engine.droppedFlag := by
  unfold State.cellArrives
  try dsimp only
  (repeat' split) <;> simp

@[simp] theorem State.silenceExpires_keeps (f : Feed) :
    (s.silenceExpires f).pending = s.pending ∧ (s.silenceExpires f).pins = s.pins ∧
    (s.silenceExpires f).time = s.time ∧ (s.silenceExpires f).feeds = s.feeds ∧ (s.silenceExpires f).delay = s.delay ∧
    (s.silenceExpires f).emitter = s.emitter ∧ (s.silenceExpires f).clips = s.clips ∧
    (s.silenceExpires f).channels = s.channels ∧ (s.silenceExpires f).splice = s.splice ∧
    (s.silenceExpires f).counters = s.counters ∧ (s.silenceExpires f).alarms = s.alarms ∧
    (s.silenceExpires f).runner = s.runner ∧ (s.silenceExpires f).out = s.out ∧
    (s.silenceExpires f).faultCount = s.faultCount ∧ (s.silenceExpires f).openingTaken = s.openingTaken ∧
    (s.silenceExpires f).eventDue = s.eventDue ∧ (s.silenceExpires f).slots.minLead = s.slots.minLead ∧
    (s.silenceExpires f).slots.maxAhead = s.slots.maxAhead ∧ (s.silenceExpires f).slots.queue = s.slots.queue ∧
    (s.silenceExpires f).engine.siteId = s.engine.siteId ∧ (s.silenceExpires f).engine.groups = s.engine.groups ∧
    (s.silenceExpires f).engine.intake = s.engine.intake ∧
    (s.silenceExpires f).engine.lastSource = s.engine.lastSource ∧ (s.silenceExpires f).engine.mask = s.engine.mask ∧
    (s.silenceExpires f).engine.reports = s.engine.reports ∧
    (s.silenceExpires f).engine.droppedFlag = s.engine.droppedFlag ∧
    (s.silenceExpires f).engine.counts = s.engine.counts := by
  unfold State.silenceExpires
  try dsimp only
  (repeat' split) <;> simp

@[simp] theorem State.feedMillisecond_keeps (f : Feed) :
    (s.feedMillisecond f).pending = s.pending ∧ (s.feedMillisecond f).pins = s.pins ∧
    (s.feedMillisecond f).time = s.time ∧ (s.feedMillisecond f).feeds = s.feeds ∧
    (s.feedMillisecond f).delay = s.delay ∧ (s.feedMillisecond f).emitter = s.emitter ∧
    (s.feedMillisecond f).clips = s.clips ∧ (s.feedMillisecond f).channels = s.channels ∧
    (s.feedMillisecond f).splice = s.splice ∧ (s.feedMillisecond f).counters = s.counters ∧
    (s.feedMillisecond f).alarms = s.alarms ∧ (s.feedMillisecond f).runner = s.runner ∧
    (s.feedMillisecond f).out = s.out ∧ (s.feedMillisecond f).faultCount = s.faultCount ∧
    (s.feedMillisecond f).openingTaken = s.openingTaken ∧ (s.feedMillisecond f).eventDue = s.eventDue ∧
    (s.feedMillisecond f).slots.minLead = s.slots.minLead ∧ (s.feedMillisecond f).slots.maxAhead = s.slots.maxAhead ∧
    (s.feedMillisecond f).slots.queue = s.slots.queue ∧ (s.feedMillisecond f).engine.siteId = s.engine.siteId ∧
    (s.feedMillisecond f).engine.groups = s.engine.groups ∧ (s.feedMillisecond f).engine.intake = s.engine.intake ∧
    (s.feedMillisecond f).engine.lastSource = s.engine.lastSource ∧
    (s.feedMillisecond f).engine.mask = s.engine.mask ∧ (s.feedMillisecond f).engine.reports = s.engine.reports ∧
    (s.feedMillisecond f).engine.droppedFlag = s.engine.droppedFlag ∧
    (s.feedMillisecond f).engine.counts = s.engine.counts := by
  unfold State.feedMillisecond
  try dsimp only
  (repeat' split) <;> simp

/-! ### the Emitter -/

@[simp] theorem State.exitFallback_keeps :
    (s.exitFallback).pending = s.pending ∧ (s.exitFallback).pins = s.pins ∧ (s.exitFallback).time = s.time ∧
    (s.exitFallback).portA = s.portA ∧ (s.exitFallback).portB = s.portB ∧ (s.exitFallback).feeds = s.feeds ∧
    (s.exitFallback).slots = s.slots ∧ (s.exitFallback).delay = s.delay ∧ (s.exitFallback).clips = s.clips ∧
    (s.exitFallback).splice = s.splice ∧ (s.exitFallback).counters = s.counters ∧ (s.exitFallback).alarms = s.alarms ∧
    (s.exitFallback).runner = s.runner ∧ (s.exitFallback).engine = s.engine ∧ (s.exitFallback).out = s.out ∧
    (s.exitFallback).faultCount = s.faultCount ∧ (s.exitFallback).openingTaken = s.openingTaken ∧
    (s.exitFallback).eventDue = s.eventDue ∧ (s.exitFallback).emitter.state = s.emitter.state ∧
    (s.exitFallback).emitter.reasons = s.emitter.reasons ∧ (s.exitFallback).emitter.phase = s.emitter.phase ∧
    (s.exitFallback).emitter.period = s.emitter.period ∧
    (s.exitFallback).emitter.pendingPeriod = s.emitter.pendingPeriod ∧
    (s.exitFallback).emitter.current = s.emitter.current ∧
    (s.exitFallback).emitter.activeFeed = s.emitter.activeFeed ∧ (s.exitFallback).emitter.timer = s.emitter.timer ∧
    (s.exitFallback).emitter.counts = s.emitter.counts ∧
    (s.exitFallback).emitter.fallbackEnable = s.emitter.fallbackEnable ∧
    (s.exitFallback).emitter.fallbackDelay = s.emitter.fallbackDelay ∧
    (s.exitFallback).emitter.fallbackClip = s.emitter.fallbackClip ∧
    (s.exitFallback).emitter.fallbackMap = s.emitter.fallbackMap := by
  unfold State.exitFallback
  try dsimp only
  (repeat' split) <;> simp

@[simp] theorem State.cutBlock_keeps :
    (s.cutBlock).pending = s.pending ∧ (s.cutBlock).pins = s.pins ∧ (s.cutBlock).time = s.time ∧
    (s.cutBlock).feeds = s.feeds ∧ (s.cutBlock).delay = s.delay ∧ (s.cutBlock).clips = s.clips ∧
    (s.cutBlock).channels = s.channels ∧ (s.cutBlock).splice = s.splice ∧ (s.cutBlock).counters = s.counters ∧
    (s.cutBlock).alarms = s.alarms ∧ (s.cutBlock).runner = s.runner ∧ (s.cutBlock).engine = s.engine ∧
    (s.cutBlock).out = s.out ∧ (s.cutBlock).faultCount = s.faultCount ∧ (s.cutBlock).openingTaken = s.openingTaken ∧
    (s.cutBlock).eventDue = s.eventDue ∧ (s.cutBlock).emitter.state = s.emitter.state ∧
    (s.cutBlock).emitter.reasons = s.emitter.reasons ∧ (s.cutBlock).emitter.phase = s.emitter.phase ∧
    (s.cutBlock).emitter.period = s.emitter.period ∧ (s.cutBlock).emitter.pendingPeriod = s.emitter.pendingPeriod ∧
    (s.cutBlock).emitter.activeFeed = s.emitter.activeFeed ∧ (s.cutBlock).emitter.timer = s.emitter.timer ∧
    (s.cutBlock).emitter.fallbackEnable = s.emitter.fallbackEnable ∧
    (s.cutBlock).emitter.fallbackDelay = s.emitter.fallbackDelay ∧
    (s.cutBlock).emitter.fallbackClip = s.emitter.fallbackClip ∧
    (s.cutBlock).emitter.fallbackMap = s.emitter.fallbackMap ∧ (s.cutBlock).slots.minLead = s.slots.minLead ∧
    (s.cutBlock).slots.maxAhead = s.slots.maxAhead ∧ (s.cutBlock).slots.queue = s.slots.queue ∧
    (s.cutBlock).slots.counts = s.slots.counts := by
  unfold State.cutBlock
  try dsimp only
  (repeat' split) <;> simp

@[simp] theorem State.leaveForMuted_keeps :
    (s.leaveForMuted).pending = s.pending ∧ (s.leaveForMuted).pins = s.pins ∧ (s.leaveForMuted).time = s.time ∧
    (s.leaveForMuted).feeds = s.feeds ∧ (s.leaveForMuted).delay = s.delay ∧ (s.leaveForMuted).clips = s.clips ∧
    (s.leaveForMuted).splice = s.splice ∧ (s.leaveForMuted).counters = s.counters ∧
    (s.leaveForMuted).alarms = s.alarms ∧ (s.leaveForMuted).runner = s.runner ∧ (s.leaveForMuted).engine = s.engine ∧
    (s.leaveForMuted).out = s.out ∧ (s.leaveForMuted).faultCount = s.faultCount ∧
    (s.leaveForMuted).openingTaken = s.openingTaken ∧ (s.leaveForMuted).eventDue = s.eventDue ∧
    (s.leaveForMuted).emitter.state = s.emitter.state ∧ (s.leaveForMuted).emitter.reasons = s.emitter.reasons ∧
    (s.leaveForMuted).emitter.phase = s.emitter.phase ∧ (s.leaveForMuted).emitter.period = s.emitter.period ∧
    (s.leaveForMuted).emitter.pendingPeriod = s.emitter.pendingPeriod ∧
    (s.leaveForMuted).emitter.activeFeed = s.emitter.activeFeed ∧ (s.leaveForMuted).emitter.timer = s.emitter.timer ∧
    (s.leaveForMuted).emitter.fallbackEnable = s.emitter.fallbackEnable ∧
    (s.leaveForMuted).emitter.fallbackDelay = s.emitter.fallbackDelay ∧
    (s.leaveForMuted).emitter.fallbackClip = s.emitter.fallbackClip ∧
    (s.leaveForMuted).emitter.fallbackMap = s.emitter.fallbackMap ∧
    (s.leaveForMuted).slots.minLead = s.slots.minLead ∧ (s.leaveForMuted).slots.maxAhead = s.slots.maxAhead ∧
    (s.leaveForMuted).slots.queue = s.slots.queue ∧ (s.leaveForMuted).slots.counts = s.slots.counts := by
  unfold State.leaveForMuted
  try dsimp only
  (repeat' split) <;> simp

@[simp] theorem State.enterMuted_keeps :
    (s.enterMuted).pending = s.pending ∧ (s.enterMuted).pins = s.pins ∧ (s.enterMuted).time = s.time ∧
    (s.enterMuted).feeds = s.feeds ∧ (s.enterMuted).delay = s.delay ∧ (s.enterMuted).clips = s.clips ∧
    (s.enterMuted).splice = s.splice ∧ (s.enterMuted).counters = s.counters ∧ (s.enterMuted).alarms = s.alarms ∧
    (s.enterMuted).runner = s.runner ∧ (s.enterMuted).out = s.out ∧ (s.enterMuted).faultCount = s.faultCount ∧
    (s.enterMuted).openingTaken = s.openingTaken ∧ (s.enterMuted).eventDue = s.eventDue ∧
    (s.enterMuted).emitter.reasons = s.emitter.reasons ∧ (s.enterMuted).emitter.phase = s.emitter.phase ∧
    (s.enterMuted).emitter.period = s.emitter.period ∧
    (s.enterMuted).emitter.pendingPeriod = s.emitter.pendingPeriod ∧
    (s.enterMuted).emitter.activeFeed = s.emitter.activeFeed ∧ (s.enterMuted).emitter.timer = s.emitter.timer ∧
    (s.enterMuted).emitter.fallbackEnable = s.emitter.fallbackEnable ∧
    (s.enterMuted).emitter.fallbackDelay = s.emitter.fallbackDelay ∧
    (s.enterMuted).emitter.fallbackClip = s.emitter.fallbackClip ∧
    (s.enterMuted).emitter.fallbackMap = s.emitter.fallbackMap ∧ (s.enterMuted).slots.minLead = s.slots.minLead ∧
    (s.enterMuted).slots.maxAhead = s.slots.maxAhead ∧ (s.enterMuted).slots.queue = s.slots.queue ∧
    (s.enterMuted).slots.counts = s.slots.counts ∧ (s.enterMuted).engine.siteId = s.engine.siteId ∧
    (s.enterMuted).engine.groups = s.engine.groups ∧ (s.enterMuted).engine.intake = s.engine.intake ∧
    (s.enterMuted).engine.lastSource = s.engine.lastSource ∧ (s.enterMuted).engine.mask = s.engine.mask ∧
    (s.enterMuted).engine.reports = s.engine.reports ∧ (s.enterMuted).engine.droppedFlag = s.engine.droppedFlag ∧
    (s.enterMuted).engine.counts = s.engine.counts := by
  unfold State.enterMuted
  try dsimp only
  (repeat' split) <;> simp

@[simp] theorem State.setReasons_keeps (r : MuteReasons) :
    (s.setReasons r).pending = s.pending ∧ (s.setReasons r).pins = s.pins ∧ (s.setReasons r).time = s.time ∧
    (s.setReasons r).feeds = s.feeds ∧ (s.setReasons r).delay = s.delay ∧ (s.setReasons r).clips = s.clips ∧
    (s.setReasons r).splice = s.splice ∧ (s.setReasons r).counters = s.counters ∧ (s.setReasons r).alarms = s.alarms ∧
    (s.setReasons r).runner = s.runner ∧ (s.setReasons r).out = s.out ∧ (s.setReasons r).faultCount = s.faultCount ∧
    (s.setReasons r).openingTaken = s.openingTaken ∧ (s.setReasons r).eventDue = s.eventDue ∧
    (s.setReasons r).emitter.phase = s.emitter.phase ∧ (s.setReasons r).emitter.period = s.emitter.period ∧
    (s.setReasons r).emitter.pendingPeriod = s.emitter.pendingPeriod ∧
    (s.setReasons r).emitter.activeFeed = s.emitter.activeFeed ∧
    (s.setReasons r).emitter.fallbackEnable = s.emitter.fallbackEnable ∧
    (s.setReasons r).emitter.fallbackDelay = s.emitter.fallbackDelay ∧
    (s.setReasons r).emitter.fallbackClip = s.emitter.fallbackClip ∧
    (s.setReasons r).emitter.fallbackMap = s.emitter.fallbackMap ∧ (s.setReasons r).slots.minLead = s.slots.minLead ∧
    (s.setReasons r).slots.maxAhead = s.slots.maxAhead ∧ (s.setReasons r).slots.queue = s.slots.queue ∧
    (s.setReasons r).slots.counts = s.slots.counts ∧ (s.setReasons r).engine.siteId = s.engine.siteId ∧
    (s.setReasons r).engine.groups = s.engine.groups ∧ (s.setReasons r).engine.intake = s.engine.intake ∧
    (s.setReasons r).engine.lastSource = s.engine.lastSource ∧ (s.setReasons r).engine.mask = s.engine.mask ∧
    (s.setReasons r).engine.reports = s.engine.reports ∧ (s.setReasons r).engine.droppedFlag = s.engine.droppedFlag ∧
    (s.setReasons r).engine.counts = s.engine.counts := by
  unfold State.setReasons
  try dsimp only
  (repeat' split) <;> simp

@[simp] theorem State.setTimeReason_keeps (b : Bool) :
    (s.setTimeReason b).pending = s.pending ∧ (s.setTimeReason b).pins = s.pins ∧ (s.setTimeReason b).time = s.time ∧
    (s.setTimeReason b).feeds = s.feeds ∧ (s.setTimeReason b).delay = s.delay ∧ (s.setTimeReason b).clips = s.clips ∧
    (s.setTimeReason b).splice = s.splice ∧ (s.setTimeReason b).counters = s.counters ∧
    (s.setTimeReason b).alarms = s.alarms ∧ (s.setTimeReason b).runner = s.runner ∧ (s.setTimeReason b).out = s.out ∧
    (s.setTimeReason b).faultCount = s.faultCount ∧ (s.setTimeReason b).openingTaken = s.openingTaken ∧
    (s.setTimeReason b).eventDue = s.eventDue ∧ (s.setTimeReason b).emitter.phase = s.emitter.phase ∧
    (s.setTimeReason b).emitter.period = s.emitter.period ∧
    (s.setTimeReason b).emitter.pendingPeriod = s.emitter.pendingPeriod ∧
    (s.setTimeReason b).emitter.activeFeed = s.emitter.activeFeed ∧
    (s.setTimeReason b).emitter.fallbackEnable = s.emitter.fallbackEnable ∧
    (s.setTimeReason b).emitter.fallbackDelay = s.emitter.fallbackDelay ∧
    (s.setTimeReason b).emitter.fallbackClip = s.emitter.fallbackClip ∧
    (s.setTimeReason b).emitter.fallbackMap = s.emitter.fallbackMap ∧
    (s.setTimeReason b).slots.minLead = s.slots.minLead ∧ (s.setTimeReason b).slots.maxAhead = s.slots.maxAhead ∧
    (s.setTimeReason b).slots.queue = s.slots.queue ∧ (s.setTimeReason b).slots.counts = s.slots.counts ∧
    (s.setTimeReason b).engine.siteId = s.engine.siteId ∧ (s.setTimeReason b).engine.groups = s.engine.groups ∧
    (s.setTimeReason b).engine.intake = s.engine.intake ∧
    (s.setTimeReason b).engine.lastSource = s.engine.lastSource ∧ (s.setTimeReason b).engine.mask = s.engine.mask ∧
    (s.setTimeReason b).engine.reports = s.engine.reports ∧
    (s.setTimeReason b).engine.droppedFlag = s.engine.droppedFlag ∧
    (s.setTimeReason b).engine.counts = s.engine.counts := by
  unfold State.setTimeReason
  try dsimp only
  (repeat' split) <;> simp

@[simp] theorem State.setOperatorReason_keeps (b : Bool) :
    (s.setOperatorReason b).pending = s.pending ∧ (s.setOperatorReason b).pins = s.pins ∧
    (s.setOperatorReason b).time = s.time ∧ (s.setOperatorReason b).feeds = s.feeds ∧
    (s.setOperatorReason b).delay = s.delay ∧ (s.setOperatorReason b).clips = s.clips ∧
    (s.setOperatorReason b).splice = s.splice ∧ (s.setOperatorReason b).counters = s.counters ∧
    (s.setOperatorReason b).alarms = s.alarms ∧ (s.setOperatorReason b).runner = s.runner ∧
    (s.setOperatorReason b).out = s.out ∧ (s.setOperatorReason b).faultCount = s.faultCount ∧
    (s.setOperatorReason b).openingTaken = s.openingTaken ∧ (s.setOperatorReason b).eventDue = s.eventDue ∧
    (s.setOperatorReason b).emitter.phase = s.emitter.phase ∧
    (s.setOperatorReason b).emitter.period = s.emitter.period ∧
    (s.setOperatorReason b).emitter.pendingPeriod = s.emitter.pendingPeriod ∧
    (s.setOperatorReason b).emitter.activeFeed = s.emitter.activeFeed ∧
    (s.setOperatorReason b).emitter.fallbackEnable = s.emitter.fallbackEnable ∧
    (s.setOperatorReason b).emitter.fallbackDelay = s.emitter.fallbackDelay ∧
    (s.setOperatorReason b).emitter.fallbackClip = s.emitter.fallbackClip ∧
    (s.setOperatorReason b).emitter.fallbackMap = s.emitter.fallbackMap ∧
    (s.setOperatorReason b).slots.minLead = s.slots.minLead ∧
    (s.setOperatorReason b).slots.maxAhead = s.slots.maxAhead ∧ (s.setOperatorReason b).slots.queue = s.slots.queue ∧
    (s.setOperatorReason b).slots.counts = s.slots.counts ∧ (s.setOperatorReason b).engine.siteId = s.engine.siteId ∧
    (s.setOperatorReason b).engine.groups = s.engine.groups ∧
    (s.setOperatorReason b).engine.intake = s.engine.intake ∧
    (s.setOperatorReason b).engine.lastSource = s.engine.lastSource ∧
    (s.setOperatorReason b).engine.mask = s.engine.mask ∧ (s.setOperatorReason b).engine.reports = s.engine.reports ∧
    (s.setOperatorReason b).engine.droppedFlag = s.engine.droppedFlag ∧
    (s.setOperatorReason b).engine.counts = s.engine.counts := by
  unfold State.setOperatorReason
  try dsimp only
  (repeat' split) <;> simp

@[simp] theorem State.notice_keeps (b : Half) :
    (s.notice b).pending = s.pending ∧ (s.notice b).pins = s.pins ∧ (s.notice b).time = s.time ∧
    (s.notice b).portA = s.portA ∧ (s.notice b).portB = s.portB ∧ (s.notice b).feeds = s.feeds ∧
    (s.notice b).slots = s.slots ∧ (s.notice b).delay = s.delay ∧ (s.notice b).alarms = s.alarms ∧
    (s.notice b).out = s.out ∧ (s.notice b).faultCount = s.faultCount ∧ (s.notice b).openingTaken = s.openingTaken ∧
    (s.notice b).eventDue = s.eventDue ∧ (s.notice b).emitter.state = s.emitter.state ∧
    (s.notice b).emitter.reasons = s.emitter.reasons ∧ (s.notice b).emitter.phase = s.emitter.phase ∧
    (s.notice b).emitter.period = s.emitter.period ∧ (s.notice b).emitter.pendingPeriod = s.emitter.pendingPeriod ∧
    (s.notice b).emitter.current = s.emitter.current ∧ (s.notice b).emitter.activeFeed = s.emitter.activeFeed ∧
    (s.notice b).emitter.timer = s.emitter.timer ∧ (s.notice b).emitter.counts = s.emitter.counts ∧
    (s.notice b).emitter.fallbackEnable = s.emitter.fallbackEnable ∧
    (s.notice b).emitter.fallbackDelay = s.emitter.fallbackDelay ∧
    (s.notice b).emitter.fallbackClip = s.emitter.fallbackClip ∧
    (s.notice b).emitter.fallbackMap = s.emitter.fallbackMap ∧ (s.notice b).clips.pages = s.clips.pages ∧
    (s.notice b).clips.intake = s.clips.intake ∧ (s.notice b).clips.record = s.clips.record ∧
    (s.notice b).clips.counts = s.clips.counts ∧ (s.notice b).splice.services = s.splice.services ∧
    (s.notice b).splice.breakMap = s.splice.breakMap ∧ (s.notice b).splice.badCues = s.splice.badCues ∧
    (s.notice b).splice.intake = s.splice.intake ∧ (s.notice b).runner.descriptors = s.runner.descriptors ∧
    (s.notice b).runner.store = s.runner.store ∧ (s.notice b).engine.siteId = s.engine.siteId ∧
    (s.notice b).engine.groups = s.engine.groups ∧ (s.notice b).engine.intake = s.engine.intake ∧
    (s.notice b).engine.lastSource = s.engine.lastSource ∧ (s.notice b).engine.mask = s.engine.mask ∧
    (s.notice b).engine.reports = s.engine.reports ∧ (s.notice b).engine.droppedFlag = s.engine.droppedFlag ∧
    (s.notice b).engine.counts = s.engine.counts := by
  unfold State.notice
  try dsimp only
  (repeat' split) <;> simp

@[simp] theorem State.serviceCell_keeps (n : Fin 8) (b : CurrentBlock) (c : Cell) (d : Stamp) :
    (s.serviceCell n b c d).pending = s.pending ∧ (s.serviceCell n b c d).pins = s.pins ∧
    (s.serviceCell n b c d).time = s.time ∧ (s.serviceCell n b c d).portA = s.portA ∧
    (s.serviceCell n b c d).portB = s.portB ∧ (s.serviceCell n b c d).feeds = s.feeds ∧
    (s.serviceCell n b c d).slots = s.slots ∧ (s.serviceCell n b c d).delay = s.delay ∧
    (s.serviceCell n b c d).counters = s.counters ∧ (s.serviceCell n b c d).alarms = s.alarms ∧
    (s.serviceCell n b c d).runner = s.runner ∧ (s.serviceCell n b c d).engine = s.engine ∧
    (s.serviceCell n b c d).faultCount = s.faultCount ∧ (s.serviceCell n b c d).openingTaken = s.openingTaken ∧
    (s.serviceCell n b c d).eventDue = s.eventDue ∧ (s.serviceCell n b c d).emitter.state = s.emitter.state ∧
    (s.serviceCell n b c d).emitter.reasons = s.emitter.reasons ∧
    (s.serviceCell n b c d).emitter.phase = s.emitter.phase ∧
    (s.serviceCell n b c d).emitter.period = s.emitter.period ∧
    (s.serviceCell n b c d).emitter.pendingPeriod = s.emitter.pendingPeriod ∧
    (s.serviceCell n b c d).emitter.current = s.emitter.current ∧
    (s.serviceCell n b c d).emitter.activeFeed = s.emitter.activeFeed ∧
    (s.serviceCell n b c d).emitter.timer = s.emitter.timer ∧
    (s.serviceCell n b c d).emitter.counts = s.emitter.counts ∧
    (s.serviceCell n b c d).emitter.fallbackEnable = s.emitter.fallbackEnable ∧
    (s.serviceCell n b c d).emitter.fallbackDelay = s.emitter.fallbackDelay ∧
    (s.serviceCell n b c d).emitter.fallbackClip = s.emitter.fallbackClip ∧
    (s.serviceCell n b c d).emitter.fallbackMap = s.emitter.fallbackMap ∧
    (s.serviceCell n b c d).clips.pages = s.clips.pages ∧ (s.serviceCell n b c d).clips.intake = s.clips.intake ∧
    (s.serviceCell n b c d).clips.record = s.clips.record ∧ (s.serviceCell n b c d).clips.counts = s.clips.counts ∧
    (s.serviceCell n b c d).clips.entries = s.clips.entries ∧
    (s.serviceCell n b c d).splice.services = s.splice.services ∧
    (s.serviceCell n b c d).splice.breakMap = s.splice.breakMap ∧
    (s.serviceCell n b c d).splice.badCues = s.splice.badCues ∧
    (s.serviceCell n b c d).splice.intake = s.splice.intake ∧
    (s.serviceCell n b c d).splice.lastNoticed = s.splice.lastNoticed ∧
    (s.serviceCell n b c d).splice.asRun = s.splice.asRun := by
  unfold State.serviceCell
  try dsimp only
  (repeat' split) <;> simp

@[simp] theorem State.classify_keeps (b : CurrentBlock) (c : Cell) (d : Stamp) :
    (s.classify b c d).pending = s.pending ∧ (s.classify b c d).pins = s.pins ∧ (s.classify b c d).time = s.time ∧
    (s.classify b c d).portA = s.portA ∧ (s.classify b c d).portB = s.portB ∧ (s.classify b c d).feeds = s.feeds ∧
    (s.classify b c d).slots = s.slots ∧ (s.classify b c d).delay = s.delay ∧
    (s.classify b c d).counters = s.counters ∧ (s.classify b c d).alarms = s.alarms ∧
    (s.classify b c d).runner = s.runner ∧ (s.classify b c d).engine = s.engine ∧
    (s.classify b c d).faultCount = s.faultCount ∧ (s.classify b c d).openingTaken = s.openingTaken ∧
    (s.classify b c d).eventDue = s.eventDue ∧ (s.classify b c d).emitter.state = s.emitter.state ∧
    (s.classify b c d).emitter.reasons = s.emitter.reasons ∧ (s.classify b c d).emitter.phase = s.emitter.phase ∧
    (s.classify b c d).emitter.period = s.emitter.period ∧
    (s.classify b c d).emitter.pendingPeriod = s.emitter.pendingPeriod ∧
    (s.classify b c d).emitter.current = s.emitter.current ∧
    (s.classify b c d).emitter.activeFeed = s.emitter.activeFeed ∧
    (s.classify b c d).emitter.timer = s.emitter.timer ∧ (s.classify b c d).emitter.counts = s.emitter.counts ∧
    (s.classify b c d).emitter.fallbackEnable = s.emitter.fallbackEnable ∧
    (s.classify b c d).emitter.fallbackDelay = s.emitter.fallbackDelay ∧
    (s.classify b c d).emitter.fallbackClip = s.emitter.fallbackClip ∧
    (s.classify b c d).emitter.fallbackMap = s.emitter.fallbackMap ∧ (s.classify b c d).clips.pages = s.clips.pages ∧
    (s.classify b c d).clips.intake = s.clips.intake ∧ (s.classify b c d).clips.record = s.clips.record ∧
    (s.classify b c d).clips.counts = s.clips.counts ∧ (s.classify b c d).clips.entries = s.clips.entries ∧
    (s.classify b c d).splice.services = s.splice.services ∧ (s.classify b c d).splice.breakMap = s.splice.breakMap ∧
    (s.classify b c d).splice.badCues = s.splice.badCues ∧ (s.classify b c d).splice.intake = s.splice.intake ∧
    (s.classify b c d).splice.lastNoticed = s.splice.lastNoticed ∧
    (s.classify b c d).splice.asRun = s.splice.asRun := by
  unfold State.classify
  try dsimp only
  (repeat' split) <;> simp

@[simp] theorem State.emitBlockCell_keeps (b : CurrentBlock) (k : Nat) (w : Bool) :
    (s.emitBlockCell b k w).pending = s.pending ∧ (s.emitBlockCell b k w).pins = s.pins ∧
    (s.emitBlockCell b k w).time = s.time ∧ (s.emitBlockCell b k w).portA = s.portA ∧
    (s.emitBlockCell b k w).portB = s.portB ∧ (s.emitBlockCell b k w).feeds = s.feeds ∧
    (s.emitBlockCell b k w).slots = s.slots ∧ (s.emitBlockCell b k w).delay = s.delay ∧
    (s.emitBlockCell b k w).counters = s.counters ∧ (s.emitBlockCell b k w).alarms = s.alarms ∧
    (s.emitBlockCell b k w).runner = s.runner ∧ (s.emitBlockCell b k w).engine = s.engine ∧
    (s.emitBlockCell b k w).faultCount = s.faultCount ∧ (s.emitBlockCell b k w).openingTaken = s.openingTaken ∧
    (s.emitBlockCell b k w).eventDue = s.eventDue ∧ (s.emitBlockCell b k w).emitter.state = s.emitter.state ∧
    (s.emitBlockCell b k w).emitter.reasons = s.emitter.reasons ∧
    (s.emitBlockCell b k w).emitter.phase = s.emitter.phase ∧
    (s.emitBlockCell b k w).emitter.period = s.emitter.period ∧
    (s.emitBlockCell b k w).emitter.pendingPeriod = s.emitter.pendingPeriod ∧
    (s.emitBlockCell b k w).emitter.activeFeed = s.emitter.activeFeed ∧
    (s.emitBlockCell b k w).emitter.timer = s.emitter.timer ∧
    (s.emitBlockCell b k w).emitter.fallbackEnable = s.emitter.fallbackEnable ∧
    (s.emitBlockCell b k w).emitter.fallbackDelay = s.emitter.fallbackDelay ∧
    (s.emitBlockCell b k w).emitter.fallbackClip = s.emitter.fallbackClip ∧
    (s.emitBlockCell b k w).emitter.fallbackMap = s.emitter.fallbackMap ∧
    (s.emitBlockCell b k w).clips.pages = s.clips.pages ∧ (s.emitBlockCell b k w).clips.intake = s.clips.intake ∧
    (s.emitBlockCell b k w).clips.record = s.clips.record ∧ (s.emitBlockCell b k w).clips.counts = s.clips.counts ∧
    (s.emitBlockCell b k w).clips.entries = s.clips.entries ∧
    (s.emitBlockCell b k w).splice.services = s.splice.services ∧
    (s.emitBlockCell b k w).splice.breakMap = s.splice.breakMap ∧
    (s.emitBlockCell b k w).splice.badCues = s.splice.badCues ∧
    (s.emitBlockCell b k w).splice.intake = s.splice.intake ∧
    (s.emitBlockCell b k w).splice.lastNoticed = s.splice.lastNoticed ∧
    (s.emitBlockCell b k w).splice.asRun = s.splice.asRun := by
  unfold State.emitBlockCell
  try dsimp only
  (repeat' split) <;> simp

@[simp] theorem State.fallbackCell_keeps :
    (s.fallbackCell).pending = s.pending ∧ (s.fallbackCell).pins = s.pins ∧ (s.fallbackCell).time = s.time ∧
    (s.fallbackCell).portA = s.portA ∧ (s.fallbackCell).portB = s.portB ∧ (s.fallbackCell).feeds = s.feeds ∧
    (s.fallbackCell).slots = s.slots ∧ (s.fallbackCell).delay = s.delay ∧ (s.fallbackCell).splice = s.splice ∧
    (s.fallbackCell).counters = s.counters ∧ (s.fallbackCell).alarms = s.alarms ∧ (s.fallbackCell).runner = s.runner ∧
    (s.fallbackCell).engine = s.engine ∧ (s.fallbackCell).faultCount = s.faultCount ∧
    (s.fallbackCell).openingTaken = s.openingTaken ∧ (s.fallbackCell).eventDue = s.eventDue ∧
    (s.fallbackCell).emitter.state = s.emitter.state ∧ (s.fallbackCell).emitter.reasons = s.emitter.reasons ∧
    (s.fallbackCell).emitter.phase = s.emitter.phase ∧ (s.fallbackCell).emitter.period = s.emitter.period ∧
    (s.fallbackCell).emitter.pendingPeriod = s.emitter.pendingPeriod ∧
    (s.fallbackCell).emitter.current = s.emitter.current ∧
    (s.fallbackCell).emitter.activeFeed = s.emitter.activeFeed ∧ (s.fallbackCell).emitter.timer = s.emitter.timer ∧
    (s.fallbackCell).emitter.counts = s.emitter.counts ∧
    (s.fallbackCell).emitter.fallbackEnable = s.emitter.fallbackEnable ∧
    (s.fallbackCell).emitter.fallbackDelay = s.emitter.fallbackDelay ∧
    (s.fallbackCell).emitter.fallbackClip = s.emitter.fallbackClip ∧
    (s.fallbackCell).emitter.fallbackMap = s.emitter.fallbackMap ∧ (s.fallbackCell).clips.pages = s.clips.pages ∧
    (s.fallbackCell).clips.intake = s.clips.intake ∧ (s.fallbackCell).clips.record = s.clips.record ∧
    (s.fallbackCell).clips.counts = s.clips.counts ∧ (s.fallbackCell).clips.entries = s.clips.entries := by
  unfold State.fallbackCell
  try dsimp only
  (repeat' split) <;> simp

@[simp] theorem State.slotStarts_keeps (i : Fin 256) :
    (s.slotStarts i).pending = s.pending ∧ (s.slotStarts i).pins = s.pins ∧ (s.slotStarts i).time = s.time ∧
    (s.slotStarts i).feeds = s.feeds ∧ (s.slotStarts i).delay = s.delay ∧ (s.slotStarts i).emitter = s.emitter ∧
    (s.slotStarts i).clips = s.clips ∧ (s.slotStarts i).channels = s.channels ∧ (s.slotStarts i).splice = s.splice ∧
    (s.slotStarts i).counters = s.counters ∧ (s.slotStarts i).alarms = s.alarms ∧ (s.slotStarts i).runner = s.runner ∧
    (s.slotStarts i).engine = s.engine ∧ (s.slotStarts i).out = s.out ∧ (s.slotStarts i).faultCount = s.faultCount ∧
    (s.slotStarts i).openingTaken = s.openingTaken ∧ (s.slotStarts i).eventDue = s.eventDue ∧
    (s.slotStarts i).slots.minLead = s.slots.minLead ∧ (s.slotStarts i).slots.maxAhead = s.slots.maxAhead ∧
    (s.slotStarts i).slots.counts = s.slots.counts := by
  unfold State.slotStarts
  try dsimp only
  (repeat' split) <;> simp

@[simp] theorem State.activate_keeps (f : Feed) :
    (s.activate f).pending = s.pending ∧ (s.activate f).pins = s.pins ∧ (s.activate f).time = s.time ∧
    (s.activate f).portA = s.portA ∧ (s.activate f).portB = s.portB ∧ (s.activate f).feeds = s.feeds ∧
    (s.activate f).slots = s.slots ∧ (s.activate f).delay = s.delay ∧ (s.activate f).clips = s.clips ∧
    (s.activate f).channels = s.channels ∧ (s.activate f).splice = s.splice ∧ (s.activate f).counters = s.counters ∧
    (s.activate f).alarms = s.alarms ∧ (s.activate f).runner = s.runner ∧ (s.activate f).out = s.out ∧
    (s.activate f).faultCount = s.faultCount ∧ (s.activate f).openingTaken = s.openingTaken ∧
    (s.activate f).eventDue = s.eventDue ∧ (s.activate f).emitter.state = s.emitter.state ∧
    (s.activate f).emitter.reasons = s.emitter.reasons ∧ (s.activate f).emitter.phase = s.emitter.phase ∧
    (s.activate f).emitter.period = s.emitter.period ∧
    (s.activate f).emitter.pendingPeriod = s.emitter.pendingPeriod ∧
    (s.activate f).emitter.current = s.emitter.current ∧ (s.activate f).emitter.timer = s.emitter.timer ∧
    (s.activate f).emitter.fallbackEnable = s.emitter.fallbackEnable ∧
    (s.activate f).emitter.fallbackDelay = s.emitter.fallbackDelay ∧
    (s.activate f).emitter.fallbackClip = s.emitter.fallbackClip ∧
    (s.activate f).emitter.fallbackMap = s.emitter.fallbackMap ∧ (s.activate f).engine.siteId = s.engine.siteId ∧
    (s.activate f).engine.groups = s.engine.groups ∧ (s.activate f).engine.intake = s.engine.intake ∧
    (s.activate f).engine.lastSource = s.engine.lastSource ∧ (s.activate f).engine.mask = s.engine.mask ∧
    (s.activate f).engine.reports = s.engine.reports ∧ (s.activate f).engine.droppedFlag = s.engine.droppedFlag ∧
    (s.activate f).engine.counts = s.engine.counts := by
  unfold State.activate
  try dsimp only
  (repeat' split) <;> simp

@[simp] theorem State.settle_keeps :
    (s.settle).pending = s.pending ∧ (s.settle).pins = s.pins ∧ (s.settle).time = s.time ∧
    (s.settle).feeds = s.feeds ∧ (s.settle).delay = s.delay ∧ (s.settle).clips = s.clips ∧
    (s.settle).channels = s.channels ∧ (s.settle).splice = s.splice ∧ (s.settle).counters = s.counters ∧
    (s.settle).alarms = s.alarms ∧ (s.settle).runner = s.runner ∧ (s.settle).out = s.out ∧
    (s.settle).faultCount = s.faultCount ∧ (s.settle).openingTaken = s.openingTaken ∧
    (s.settle).eventDue = s.eventDue ∧ (s.settle).emitter.reasons = s.emitter.reasons ∧
    (s.settle).emitter.phase = s.emitter.phase ∧ (s.settle).emitter.period = s.emitter.period ∧
    (s.settle).emitter.pendingPeriod = s.emitter.pendingPeriod ∧
    (s.settle).emitter.activeFeed = s.emitter.activeFeed ∧
    (s.settle).emitter.fallbackEnable = s.emitter.fallbackEnable ∧
    (s.settle).emitter.fallbackDelay = s.emitter.fallbackDelay ∧
    (s.settle).emitter.fallbackClip = s.emitter.fallbackClip ∧
    (s.settle).emitter.fallbackMap = s.emitter.fallbackMap ∧ (s.settle).slots.minLead = s.slots.minLead ∧
    (s.settle).slots.maxAhead = s.slots.maxAhead ∧ (s.settle).slots.queue = s.slots.queue ∧
    (s.settle).engine.siteId = s.engine.siteId ∧ (s.settle).engine.groups = s.engine.groups ∧
    (s.settle).engine.intake = s.engine.intake ∧ (s.settle).engine.lastSource = s.engine.lastSource ∧
    (s.settle).engine.mask = s.engine.mask ∧ (s.settle).engine.reports = s.engine.reports ∧
    (s.settle).engine.droppedFlag = s.engine.droppedFlag ∧ (s.settle).engine.counts = s.engine.counts := by
  unfold State.settle
  try dsimp only
  (repeat' split) <;> simp

@[simp] theorem State.discardBlock_keeps (i : Fin 256) :
    (s.discardBlock i).pending = s.pending ∧ (s.discardBlock i).pins = s.pins ∧ (s.discardBlock i).time = s.time ∧
    (s.discardBlock i).feeds = s.feeds ∧ (s.discardBlock i).delay = s.delay ∧ (s.discardBlock i).alarms = s.alarms ∧
    (s.discardBlock i).out = s.out ∧ (s.discardBlock i).faultCount = s.faultCount ∧
    (s.discardBlock i).openingTaken = s.openingTaken ∧ (s.discardBlock i).eventDue = s.eventDue ∧
    (s.discardBlock i).emitter.state = s.emitter.state ∧ (s.discardBlock i).emitter.reasons = s.emitter.reasons ∧
    (s.discardBlock i).emitter.current = s.emitter.current ∧
    (s.discardBlock i).emitter.activeFeed = s.emitter.activeFeed ∧
    (s.discardBlock i).emitter.timer = s.emitter.timer ∧
    (s.discardBlock i).emitter.fallbackEnable = s.emitter.fallbackEnable ∧
    (s.discardBlock i).emitter.fallbackDelay = s.emitter.fallbackDelay ∧
    (s.discardBlock i).emitter.fallbackClip = s.emitter.fallbackClip ∧
    (s.discardBlock i).emitter.fallbackMap = s.emitter.fallbackMap ∧ (s.discardBlock i).clips.pages = s.clips.pages ∧
    (s.discardBlock i).clips.intake = s.clips.intake ∧ (s.discardBlock i).clips.record = s.clips.record ∧
    (s.discardBlock i).clips.counts = s.clips.counts ∧ (s.discardBlock i).splice.services = s.splice.services ∧
    (s.discardBlock i).splice.breakMap = s.splice.breakMap ∧ (s.discardBlock i).splice.badCues = s.splice.badCues ∧
    (s.discardBlock i).splice.intake = s.splice.intake ∧
    (s.discardBlock i).runner.descriptors = s.runner.descriptors ∧ (s.discardBlock i).runner.store = s.runner.store ∧
    (s.discardBlock i).slots.minLead = s.slots.minLead ∧ (s.discardBlock i).slots.maxAhead = s.slots.maxAhead ∧
    (s.discardBlock i).slots.counts = s.slots.counts ∧ (s.discardBlock i).engine.siteId = s.engine.siteId ∧
    (s.discardBlock i).engine.groups = s.engine.groups ∧ (s.discardBlock i).engine.intake = s.engine.intake ∧
    (s.discardBlock i).engine.lastSource = s.engine.lastSource ∧ (s.discardBlock i).engine.mask = s.engine.mask ∧
    (s.discardBlock i).engine.reports = s.engine.reports ∧
    (s.discardBlock i).engine.droppedFlag = s.engine.droppedFlag ∧
    (s.discardBlock i).engine.counts = s.engine.counts := by
  unfold State.discardBlock
  try dsimp only
  (repeat' split) <;> simp

@[simp] theorem State.skipBlock_keeps (i : Fin 256) :
    (s.skipBlock i).pending = s.pending ∧ (s.skipBlock i).pins = s.pins ∧ (s.skipBlock i).time = s.time ∧
    (s.skipBlock i).feeds = s.feeds ∧ (s.skipBlock i).delay = s.delay ∧ (s.skipBlock i).alarms = s.alarms ∧
    (s.skipBlock i).out = s.out ∧ (s.skipBlock i).faultCount = s.faultCount ∧
    (s.skipBlock i).openingTaken = s.openingTaken ∧ (s.skipBlock i).eventDue = s.eventDue ∧
    (s.skipBlock i).emitter.state = s.emitter.state ∧ (s.skipBlock i).emitter.reasons = s.emitter.reasons ∧
    (s.skipBlock i).emitter.phase = s.emitter.phase ∧ (s.skipBlock i).emitter.period = s.emitter.period ∧
    (s.skipBlock i).emitter.pendingPeriod = s.emitter.pendingPeriod ∧
    (s.skipBlock i).emitter.current = s.emitter.current ∧ (s.skipBlock i).emitter.activeFeed = s.emitter.activeFeed ∧
    (s.skipBlock i).emitter.timer = s.emitter.timer ∧
    (s.skipBlock i).emitter.fallbackEnable = s.emitter.fallbackEnable ∧
    (s.skipBlock i).emitter.fallbackDelay = s.emitter.fallbackDelay ∧
    (s.skipBlock i).emitter.fallbackClip = s.emitter.fallbackClip ∧
    (s.skipBlock i).emitter.fallbackMap = s.emitter.fallbackMap ∧ (s.skipBlock i).clips.pages = s.clips.pages ∧
    (s.skipBlock i).clips.intake = s.clips.intake ∧ (s.skipBlock i).clips.record = s.clips.record ∧
    (s.skipBlock i).clips.counts = s.clips.counts ∧ (s.skipBlock i).splice.services = s.splice.services ∧
    (s.skipBlock i).splice.breakMap = s.splice.breakMap ∧ (s.skipBlock i).splice.badCues = s.splice.badCues ∧
    (s.skipBlock i).splice.intake = s.splice.intake ∧ (s.skipBlock i).runner.descriptors = s.runner.descriptors ∧
    (s.skipBlock i).runner.store = s.runner.store ∧ (s.skipBlock i).slots.minLead = s.slots.minLead ∧
    (s.skipBlock i).slots.maxAhead = s.slots.maxAhead ∧ (s.skipBlock i).slots.counts = s.slots.counts ∧
    (s.skipBlock i).engine.siteId = s.engine.siteId ∧ (s.skipBlock i).engine.groups = s.engine.groups ∧
    (s.skipBlock i).engine.intake = s.engine.intake ∧ (s.skipBlock i).engine.lastSource = s.engine.lastSource ∧
    (s.skipBlock i).engine.mask = s.engine.mask ∧ (s.skipBlock i).engine.reports = s.engine.reports ∧
    (s.skipBlock i).engine.droppedFlag = s.engine.droppedFlag ∧ (s.skipBlock i).engine.counts = s.engine.counts := by
  unfold State.skipBlock
  try dsimp only
  (repeat' split) <;> simp

@[simp] theorem State.leaveFallback_keeps :
    (s.leaveFallback).pending = s.pending ∧ (s.leaveFallback).pins = s.pins ∧ (s.leaveFallback).time = s.time ∧
    (s.leaveFallback).portA = s.portA ∧ (s.leaveFallback).portB = s.portB ∧ (s.leaveFallback).feeds = s.feeds ∧
    (s.leaveFallback).slots = s.slots ∧ (s.leaveFallback).delay = s.delay ∧ (s.leaveFallback).clips = s.clips ∧
    (s.leaveFallback).splice = s.splice ∧ (s.leaveFallback).counters = s.counters ∧
    (s.leaveFallback).alarms = s.alarms ∧ (s.leaveFallback).runner = s.runner ∧ (s.leaveFallback).engine = s.engine ∧
    (s.leaveFallback).out = s.out ∧ (s.leaveFallback).faultCount = s.faultCount ∧
    (s.leaveFallback).openingTaken = s.openingTaken ∧ (s.leaveFallback).eventDue = s.eventDue ∧
    (s.leaveFallback).emitter.state = s.emitter.state ∧ (s.leaveFallback).emitter.reasons = s.emitter.reasons ∧
    (s.leaveFallback).emitter.phase = s.emitter.phase ∧ (s.leaveFallback).emitter.period = s.emitter.period ∧
    (s.leaveFallback).emitter.pendingPeriod = s.emitter.pendingPeriod ∧
    (s.leaveFallback).emitter.current = s.emitter.current ∧
    (s.leaveFallback).emitter.activeFeed = s.emitter.activeFeed ∧ (s.leaveFallback).emitter.timer = s.emitter.timer ∧
    (s.leaveFallback).emitter.counts = s.emitter.counts ∧
    (s.leaveFallback).emitter.fallbackEnable = s.emitter.fallbackEnable ∧
    (s.leaveFallback).emitter.fallbackDelay = s.emitter.fallbackDelay ∧
    (s.leaveFallback).emitter.fallbackClip = s.emitter.fallbackClip ∧
    (s.leaveFallback).emitter.fallbackMap = s.emitter.fallbackMap := by
  unfold State.leaveFallback
  try dsimp only
  (repeat' split) <;> simp

@[simp] theorem State.goOnAir_keeps (i : Fin 256) (j : Nat) :
    (s.goOnAir i j).pending = s.pending ∧ (s.goOnAir i j).pins = s.pins ∧ (s.goOnAir i j).time = s.time ∧
    (s.goOnAir i j).portA = s.portA ∧ (s.goOnAir i j).portB = s.portB ∧ (s.goOnAir i j).feeds = s.feeds ∧
    (s.goOnAir i j).slots = s.slots ∧ (s.goOnAir i j).delay = s.delay ∧ (s.goOnAir i j).alarms = s.alarms ∧
    (s.goOnAir i j).out = s.out ∧ (s.goOnAir i j).faultCount = s.faultCount ∧
    (s.goOnAir i j).openingTaken = s.openingTaken ∧ (s.goOnAir i j).eventDue = s.eventDue ∧
    (s.goOnAir i j).emitter.reasons = s.emitter.reasons ∧
    (s.goOnAir i j).emitter.fallbackEnable = s.emitter.fallbackEnable ∧
    (s.goOnAir i j).emitter.fallbackDelay = s.emitter.fallbackDelay ∧
    (s.goOnAir i j).emitter.fallbackClip = s.emitter.fallbackClip ∧
    (s.goOnAir i j).emitter.fallbackMap = s.emitter.fallbackMap ∧ (s.goOnAir i j).clips.pages = s.clips.pages ∧
    (s.goOnAir i j).clips.intake = s.clips.intake ∧ (s.goOnAir i j).clips.record = s.clips.record ∧
    (s.goOnAir i j).clips.counts = s.clips.counts ∧ (s.goOnAir i j).splice.services = s.splice.services ∧
    (s.goOnAir i j).splice.breakMap = s.splice.breakMap ∧ (s.goOnAir i j).splice.badCues = s.splice.badCues ∧
    (s.goOnAir i j).splice.intake = s.splice.intake ∧ (s.goOnAir i j).runner.descriptors = s.runner.descriptors ∧
    (s.goOnAir i j).runner.store = s.runner.store ∧ (s.goOnAir i j).engine.siteId = s.engine.siteId ∧
    (s.goOnAir i j).engine.groups = s.engine.groups ∧ (s.goOnAir i j).engine.intake = s.engine.intake ∧
    (s.goOnAir i j).engine.lastSource = s.engine.lastSource ∧ (s.goOnAir i j).engine.mask = s.engine.mask ∧
    (s.goOnAir i j).engine.reports = s.engine.reports ∧ (s.goOnAir i j).engine.droppedFlag = s.engine.droppedFlag ∧
    (s.goOnAir i j).engine.counts = s.engine.counts := by
  unfold State.goOnAir
  try dsimp only
  (repeat' split) <;> simp

@[simp] theorem State.startBlock_keeps (i : Fin 256) (j : Nat) (w : Bool) :
    (s.startBlock i j w).pending = s.pending ∧ (s.startBlock i j w).pins = s.pins ∧
    (s.startBlock i j w).time = s.time ∧ (s.startBlock i j w).feeds = s.feeds ∧ (s.startBlock i j w).delay = s.delay ∧
    (s.startBlock i j w).alarms = s.alarms ∧ (s.startBlock i j w).faultCount = s.faultCount ∧
    (s.startBlock i j w).openingTaken = s.openingTaken ∧ (s.startBlock i j w).eventDue = s.eventDue ∧
    (s.startBlock i j w).emitter.reasons = s.emitter.reasons ∧
    (s.startBlock i j w).emitter.fallbackEnable = s.emitter.fallbackEnable ∧
    (s.startBlock i j w).emitter.fallbackDelay = s.emitter.fallbackDelay ∧
    (s.startBlock i j w).emitter.fallbackClip = s.emitter.fallbackClip ∧
    (s.startBlock i j w).emitter.fallbackMap = s.emitter.fallbackMap ∧
    (s.startBlock i j w).clips.pages = s.clips.pages ∧ (s.startBlock i j w).clips.intake = s.clips.intake ∧
    (s.startBlock i j w).clips.record = s.clips.record ∧ (s.startBlock i j w).clips.counts = s.clips.counts ∧
    (s.startBlock i j w).splice.services = s.splice.services ∧
    (s.startBlock i j w).splice.breakMap = s.splice.breakMap ∧
    (s.startBlock i j w).splice.badCues = s.splice.badCues ∧ (s.startBlock i j w).splice.intake = s.splice.intake ∧
    (s.startBlock i j w).runner.descriptors = s.runner.descriptors ∧
    (s.startBlock i j w).runner.store = s.runner.store ∧ (s.startBlock i j w).slots.minLead = s.slots.minLead ∧
    (s.startBlock i j w).slots.maxAhead = s.slots.maxAhead ∧ (s.startBlock i j w).slots.counts = s.slots.counts ∧
    (s.startBlock i j w).engine.siteId = s.engine.siteId ∧ (s.startBlock i j w).engine.groups = s.engine.groups ∧
    (s.startBlock i j w).engine.intake = s.engine.intake ∧
    (s.startBlock i j w).engine.lastSource = s.engine.lastSource ∧ (s.startBlock i j w).engine.mask = s.engine.mask ∧
    (s.startBlock i j w).engine.reports = s.engine.reports ∧
    (s.startBlock i j w).engine.droppedFlag = s.engine.droppedFlag ∧
    (s.startBlock i j w).engine.counts = s.engine.counts := by
  unfold State.startBlock
  try dsimp only
  (repeat' split) <;> simp

@[simp] theorem State.takeLast_keeps (i : Fin 256) (w : Bool) :
    (s.takeLast i w).pending = s.pending ∧ (s.takeLast i w).pins = s.pins ∧ (s.takeLast i w).time = s.time ∧
    (s.takeLast i w).feeds = s.feeds ∧ (s.takeLast i w).delay = s.delay ∧ (s.takeLast i w).alarms = s.alarms ∧
    (s.takeLast i w).faultCount = s.faultCount ∧ (s.takeLast i w).openingTaken = s.openingTaken ∧
    (s.takeLast i w).eventDue = s.eventDue ∧ (s.takeLast i w).emitter.reasons = s.emitter.reasons ∧
    (s.takeLast i w).emitter.fallbackEnable = s.emitter.fallbackEnable ∧
    (s.takeLast i w).emitter.fallbackDelay = s.emitter.fallbackDelay ∧
    (s.takeLast i w).emitter.fallbackClip = s.emitter.fallbackClip ∧
    (s.takeLast i w).emitter.fallbackMap = s.emitter.fallbackMap ∧ (s.takeLast i w).clips.pages = s.clips.pages ∧
    (s.takeLast i w).clips.intake = s.clips.intake ∧ (s.takeLast i w).clips.record = s.clips.record ∧
    (s.takeLast i w).clips.counts = s.clips.counts ∧ (s.takeLast i w).splice.services = s.splice.services ∧
    (s.takeLast i w).splice.breakMap = s.splice.breakMap ∧ (s.takeLast i w).splice.badCues = s.splice.badCues ∧
    (s.takeLast i w).splice.intake = s.splice.intake ∧ (s.takeLast i w).runner.descriptors = s.runner.descriptors ∧
    (s.takeLast i w).runner.store = s.runner.store ∧ (s.takeLast i w).slots.minLead = s.slots.minLead ∧
    (s.takeLast i w).slots.maxAhead = s.slots.maxAhead ∧ (s.takeLast i w).slots.counts = s.slots.counts ∧
    (s.takeLast i w).engine.siteId = s.engine.siteId ∧ (s.takeLast i w).engine.groups = s.engine.groups ∧
    (s.takeLast i w).engine.intake = s.engine.intake ∧ (s.takeLast i w).engine.lastSource = s.engine.lastSource ∧
    (s.takeLast i w).engine.mask = s.engine.mask ∧ (s.takeLast i w).engine.reports = s.engine.reports ∧
    (s.takeLast i w).engine.droppedFlag = s.engine.droppedFlag ∧
    (s.takeLast i w).engine.counts = s.engine.counts := by
  simp only [State.takeLast]
  (repeat' split) <;> simp

@[simp] theorem State.discarded_keeps (l : List (Fin 256)) :
    (List.foldl State.discardBlock s l).pending = s.pending ∧ (List.foldl State.discardBlock s l).pins = s.pins ∧
    (List.foldl State.discardBlock s l).time = s.time ∧ (List.foldl State.discardBlock s l).feeds = s.feeds ∧
    (List.foldl State.discardBlock s l).delay = s.delay ∧ (List.foldl State.discardBlock s l).alarms = s.alarms ∧
    (List.foldl State.discardBlock s l).out = s.out ∧ (List.foldl State.discardBlock s l).faultCount = s.faultCount ∧
    (List.foldl State.discardBlock s l).openingTaken = s.openingTaken ∧
    (List.foldl State.discardBlock s l).eventDue = s.eventDue ∧
    (List.foldl State.discardBlock s l).emitter.state = s.emitter.state ∧
    (List.foldl State.discardBlock s l).emitter.reasons = s.emitter.reasons ∧
    (List.foldl State.discardBlock s l).emitter.current = s.emitter.current ∧
    (List.foldl State.discardBlock s l).emitter.activeFeed = s.emitter.activeFeed ∧
    (List.foldl State.discardBlock s l).emitter.timer = s.emitter.timer ∧
    (List.foldl State.discardBlock s l).emitter.fallbackEnable = s.emitter.fallbackEnable ∧
    (List.foldl State.discardBlock s l).emitter.fallbackDelay = s.emitter.fallbackDelay ∧
    (List.foldl State.discardBlock s l).emitter.fallbackClip = s.emitter.fallbackClip ∧
    (List.foldl State.discardBlock s l).emitter.fallbackMap = s.emitter.fallbackMap ∧
    (List.foldl State.discardBlock s l).clips.pages = s.clips.pages ∧
    (List.foldl State.discardBlock s l).clips.intake = s.clips.intake ∧
    (List.foldl State.discardBlock s l).clips.record = s.clips.record ∧
    (List.foldl State.discardBlock s l).clips.counts = s.clips.counts ∧
    (List.foldl State.discardBlock s l).splice.services = s.splice.services ∧
    (List.foldl State.discardBlock s l).splice.breakMap = s.splice.breakMap ∧
    (List.foldl State.discardBlock s l).splice.badCues = s.splice.badCues ∧
    (List.foldl State.discardBlock s l).splice.intake = s.splice.intake ∧
    (List.foldl State.discardBlock s l).runner.descriptors = s.runner.descriptors ∧
    (List.foldl State.discardBlock s l).runner.store = s.runner.store ∧
    (List.foldl State.discardBlock s l).slots.minLead = s.slots.minLead ∧
    (List.foldl State.discardBlock s l).slots.maxAhead = s.slots.maxAhead ∧
    (List.foldl State.discardBlock s l).slots.counts = s.slots.counts ∧
    (List.foldl State.discardBlock s l).engine.siteId = s.engine.siteId ∧
    (List.foldl State.discardBlock s l).engine.groups = s.engine.groups ∧
    (List.foldl State.discardBlock s l).engine.intake = s.engine.intake ∧
    (List.foldl State.discardBlock s l).engine.lastSource = s.engine.lastSource ∧
    (List.foldl State.discardBlock s l).engine.mask = s.engine.mask ∧
    (List.foldl State.discardBlock s l).engine.reports = s.engine.reports ∧
    (List.foldl State.discardBlock s l).engine.droppedFlag = s.engine.droppedFlag ∧
    (List.foldl State.discardBlock s l).engine.counts = s.engine.counts := by
  refine ⟨foldl_keeps (·.pending) _ ?_ _ _, foldl_keeps (·.pins) _ ?_ _ _, foldl_keeps (·.time) _ ?_ _ _,
    foldl_keeps (·.feeds) _ ?_ _ _, foldl_keeps (·.delay) _ ?_ _ _, foldl_keeps (·.alarms) _ ?_ _ _,
    foldl_keeps (·.out) _ ?_ _ _, foldl_keeps (·.faultCount) _ ?_ _ _, foldl_keeps (·.openingTaken) _ ?_ _ _, foldl_keeps (·.eventDue) _ ?_ _ _,
    foldl_keeps (·.emitter.state) _ ?_ _ _, foldl_keeps (·.emitter.reasons) _ ?_ _ _,
    foldl_keeps (·.emitter.current) _ ?_ _ _, foldl_keeps (·.emitter.activeFeed) _ ?_ _ _,
    foldl_keeps (·.emitter.timer) _ ?_ _ _, foldl_keeps (·.emitter.fallbackEnable) _ ?_ _ _,
    foldl_keeps (·.emitter.fallbackDelay) _ ?_ _ _, foldl_keeps (·.emitter.fallbackClip) _ ?_ _ _,
    foldl_keeps (·.emitter.fallbackMap) _ ?_ _ _, foldl_keeps (·.clips.pages) _ ?_ _ _,
    foldl_keeps (·.clips.intake) _ ?_ _ _, foldl_keeps (·.clips.record) _ ?_ _ _,
    foldl_keeps (·.clips.counts) _ ?_ _ _, foldl_keeps (·.splice.services) _ ?_ _ _,
    foldl_keeps (·.splice.breakMap) _ ?_ _ _, foldl_keeps (·.splice.badCues) _ ?_ _ _,
    foldl_keeps (·.splice.intake) _ ?_ _ _, foldl_keeps (·.runner.descriptors) _ ?_ _ _,
    foldl_keeps (·.runner.store) _ ?_ _ _, foldl_keeps (·.slots.minLead) _ ?_ _ _,
    foldl_keeps (·.slots.maxAhead) _ ?_ _ _, foldl_keeps (·.slots.counts) _ ?_ _ _,
    foldl_keeps (·.engine.siteId) _ ?_ _ _, foldl_keeps (·.engine.groups) _ ?_ _ _,
    foldl_keeps (·.engine.intake) _ ?_ _ _, foldl_keeps (·.engine.lastSource) _ ?_ _ _,
    foldl_keeps (·.engine.mask) _ ?_ _ _, foldl_keeps (·.engine.reports) _ ?_ _ _,
    foldl_keeps (·.engine.droppedFlag) _ ?_ _ _, foldl_keeps (·.engine.counts) _ ?_ _ _⟩ <;>
    · intro b a
      first | (simp; done) | ((try dsimp only); (repeat' split) <;> simp)

@[simp] theorem State.skipped_keeps (l : List (Fin 256)) :
    (List.foldl State.skipBlock s l).pending = s.pending ∧ (List.foldl State.skipBlock s l).pins = s.pins ∧
    (List.foldl State.skipBlock s l).time = s.time ∧ (List.foldl State.skipBlock s l).feeds = s.feeds ∧
    (List.foldl State.skipBlock s l).delay = s.delay ∧ (List.foldl State.skipBlock s l).alarms = s.alarms ∧
    (List.foldl State.skipBlock s l).out = s.out ∧ (List.foldl State.skipBlock s l).faultCount = s.faultCount ∧
    (List.foldl State.skipBlock s l).openingTaken = s.openingTaken ∧
    (List.foldl State.skipBlock s l).eventDue = s.eventDue ∧
    (List.foldl State.skipBlock s l).emitter.state = s.emitter.state ∧
    (List.foldl State.skipBlock s l).emitter.reasons = s.emitter.reasons ∧
    (List.foldl State.skipBlock s l).emitter.phase = s.emitter.phase ∧
    (List.foldl State.skipBlock s l).emitter.period = s.emitter.period ∧
    (List.foldl State.skipBlock s l).emitter.pendingPeriod = s.emitter.pendingPeriod ∧
    (List.foldl State.skipBlock s l).emitter.current = s.emitter.current ∧
    (List.foldl State.skipBlock s l).emitter.activeFeed = s.emitter.activeFeed ∧
    (List.foldl State.skipBlock s l).emitter.timer = s.emitter.timer ∧
    (List.foldl State.skipBlock s l).emitter.fallbackEnable = s.emitter.fallbackEnable ∧
    (List.foldl State.skipBlock s l).emitter.fallbackDelay = s.emitter.fallbackDelay ∧
    (List.foldl State.skipBlock s l).emitter.fallbackClip = s.emitter.fallbackClip ∧
    (List.foldl State.skipBlock s l).emitter.fallbackMap = s.emitter.fallbackMap ∧
    (List.foldl State.skipBlock s l).clips.pages = s.clips.pages ∧
    (List.foldl State.skipBlock s l).clips.intake = s.clips.intake ∧
    (List.foldl State.skipBlock s l).clips.record = s.clips.record ∧
    (List.foldl State.skipBlock s l).clips.counts = s.clips.counts ∧
    (List.foldl State.skipBlock s l).splice.services = s.splice.services ∧
    (List.foldl State.skipBlock s l).splice.breakMap = s.splice.breakMap ∧
    (List.foldl State.skipBlock s l).splice.badCues = s.splice.badCues ∧
    (List.foldl State.skipBlock s l).splice.intake = s.splice.intake ∧
    (List.foldl State.skipBlock s l).runner.descriptors = s.runner.descriptors ∧
    (List.foldl State.skipBlock s l).runner.store = s.runner.store ∧
    (List.foldl State.skipBlock s l).slots.minLead = s.slots.minLead ∧
    (List.foldl State.skipBlock s l).slots.maxAhead = s.slots.maxAhead ∧
    (List.foldl State.skipBlock s l).slots.counts = s.slots.counts ∧
    (List.foldl State.skipBlock s l).engine.siteId = s.engine.siteId ∧
    (List.foldl State.skipBlock s l).engine.groups = s.engine.groups ∧
    (List.foldl State.skipBlock s l).engine.intake = s.engine.intake ∧
    (List.foldl State.skipBlock s l).engine.lastSource = s.engine.lastSource ∧
    (List.foldl State.skipBlock s l).engine.mask = s.engine.mask ∧
    (List.foldl State.skipBlock s l).engine.reports = s.engine.reports ∧
    (List.foldl State.skipBlock s l).engine.droppedFlag = s.engine.droppedFlag ∧
    (List.foldl State.skipBlock s l).engine.counts = s.engine.counts := by
  refine ⟨foldl_keeps (·.pending) _ ?_ _ _, foldl_keeps (·.pins) _ ?_ _ _, foldl_keeps (·.time) _ ?_ _ _,
    foldl_keeps (·.feeds) _ ?_ _ _, foldl_keeps (·.delay) _ ?_ _ _, foldl_keeps (·.alarms) _ ?_ _ _,
    foldl_keeps (·.out) _ ?_ _ _, foldl_keeps (·.faultCount) _ ?_ _ _, foldl_keeps (·.openingTaken) _ ?_ _ _, foldl_keeps (·.eventDue) _ ?_ _ _,
    foldl_keeps (·.emitter.state) _ ?_ _ _, foldl_keeps (·.emitter.reasons) _ ?_ _ _,
    foldl_keeps (·.emitter.phase) _ ?_ _ _, foldl_keeps (·.emitter.period) _ ?_ _ _,
    foldl_keeps (·.emitter.pendingPeriod) _ ?_ _ _, foldl_keeps (·.emitter.current) _ ?_ _ _,
    foldl_keeps (·.emitter.activeFeed) _ ?_ _ _, foldl_keeps (·.emitter.timer) _ ?_ _ _,
    foldl_keeps (·.emitter.fallbackEnable) _ ?_ _ _, foldl_keeps (·.emitter.fallbackDelay) _ ?_ _ _,
    foldl_keeps (·.emitter.fallbackClip) _ ?_ _ _, foldl_keeps (·.emitter.fallbackMap) _ ?_ _ _,
    foldl_keeps (·.clips.pages) _ ?_ _ _, foldl_keeps (·.clips.intake) _ ?_ _ _,
    foldl_keeps (·.clips.record) _ ?_ _ _, foldl_keeps (·.clips.counts) _ ?_ _ _,
    foldl_keeps (·.splice.services) _ ?_ _ _, foldl_keeps (·.splice.breakMap) _ ?_ _ _,
    foldl_keeps (·.splice.badCues) _ ?_ _ _, foldl_keeps (·.splice.intake) _ ?_ _ _,
    foldl_keeps (·.runner.descriptors) _ ?_ _ _, foldl_keeps (·.runner.store) _ ?_ _ _,
    foldl_keeps (·.slots.minLead) _ ?_ _ _, foldl_keeps (·.slots.maxAhead) _ ?_ _ _,
    foldl_keeps (·.slots.counts) _ ?_ _ _, foldl_keeps (·.engine.siteId) _ ?_ _ _,
    foldl_keeps (·.engine.groups) _ ?_ _ _, foldl_keeps (·.engine.intake) _ ?_ _ _,
    foldl_keeps (·.engine.lastSource) _ ?_ _ _, foldl_keeps (·.engine.mask) _ ?_ _ _,
    foldl_keeps (·.engine.reports) _ ?_ _ _, foldl_keeps (·.engine.droppedFlag) _ ?_ _ _,
    foldl_keeps (·.engine.counts) _ ?_ _ _⟩ <;>
    · intro b a
      first | (simp; done) | ((try dsimp only); (repeat' split) <;> simp)

@[simp] theorem State.takeBlocks_keeps (l : List (Fin 256)) (w : Bool) :
    (s.takeBlocks l w).pending = s.pending ∧ (s.takeBlocks l w).pins = s.pins ∧ (s.takeBlocks l w).time = s.time ∧
    (s.takeBlocks l w).feeds = s.feeds ∧ (s.takeBlocks l w).delay = s.delay ∧ (s.takeBlocks l w).alarms = s.alarms ∧
    (s.takeBlocks l w).faultCount = s.faultCount ∧ (s.takeBlocks l w).openingTaken = s.openingTaken ∧
    (s.takeBlocks l w).eventDue = s.eventDue ∧ (s.takeBlocks l w).emitter.reasons = s.emitter.reasons ∧
    (s.takeBlocks l w).emitter.fallbackEnable = s.emitter.fallbackEnable ∧
    (s.takeBlocks l w).emitter.fallbackDelay = s.emitter.fallbackDelay ∧
    (s.takeBlocks l w).emitter.fallbackClip = s.emitter.fallbackClip ∧
    (s.takeBlocks l w).emitter.fallbackMap = s.emitter.fallbackMap ∧ (s.takeBlocks l w).clips.pages = s.clips.pages ∧
    (s.takeBlocks l w).clips.intake = s.clips.intake ∧ (s.takeBlocks l w).clips.record = s.clips.record ∧
    (s.takeBlocks l w).clips.counts = s.clips.counts ∧ (s.takeBlocks l w).splice.services = s.splice.services ∧
    (s.takeBlocks l w).splice.breakMap = s.splice.breakMap ∧ (s.takeBlocks l w).splice.badCues = s.splice.badCues ∧
    (s.takeBlocks l w).splice.intake = s.splice.intake ∧
    (s.takeBlocks l w).runner.descriptors = s.runner.descriptors ∧ (s.takeBlocks l w).runner.store = s.runner.store ∧
    (s.takeBlocks l w).slots.minLead = s.slots.minLead ∧ (s.takeBlocks l w).slots.maxAhead = s.slots.maxAhead ∧
    (s.takeBlocks l w).engine.siteId = s.engine.siteId ∧ (s.takeBlocks l w).engine.groups = s.engine.groups ∧
    (s.takeBlocks l w).engine.intake = s.engine.intake ∧ (s.takeBlocks l w).engine.lastSource = s.engine.lastSource ∧
    (s.takeBlocks l w).engine.mask = s.engine.mask ∧ (s.takeBlocks l w).engine.reports = s.engine.reports ∧
    (s.takeBlocks l w).engine.droppedFlag = s.engine.droppedFlag ∧
    (s.takeBlocks l w).engine.counts = s.engine.counts := by
  unfold State.takeBlocks
  try dsimp only
  (repeat' split) <;> simp

@[simp] theorem State.takeReached_keeps (w : Bool) :
    (s.takeReached w).pending = s.pending ∧ (s.takeReached w).pins = s.pins ∧ (s.takeReached w).time = s.time ∧
    (s.takeReached w).feeds = s.feeds ∧ (s.takeReached w).delay = s.delay ∧ (s.takeReached w).alarms = s.alarms ∧
    (s.takeReached w).faultCount = s.faultCount ∧ (s.takeReached w).openingTaken = s.openingTaken ∧
    (s.takeReached w).eventDue = s.eventDue ∧ (s.takeReached w).emitter.reasons = s.emitter.reasons ∧
    (s.takeReached w).emitter.fallbackEnable = s.emitter.fallbackEnable ∧
    (s.takeReached w).emitter.fallbackDelay = s.emitter.fallbackDelay ∧
    (s.takeReached w).emitter.fallbackClip = s.emitter.fallbackClip ∧
    (s.takeReached w).emitter.fallbackMap = s.emitter.fallbackMap ∧ (s.takeReached w).clips.pages = s.clips.pages ∧
    (s.takeReached w).clips.intake = s.clips.intake ∧ (s.takeReached w).clips.record = s.clips.record ∧
    (s.takeReached w).clips.counts = s.clips.counts ∧ (s.takeReached w).splice.services = s.splice.services ∧
    (s.takeReached w).splice.breakMap = s.splice.breakMap ∧ (s.takeReached w).splice.badCues = s.splice.badCues ∧
    (s.takeReached w).splice.intake = s.splice.intake ∧ (s.takeReached w).runner.descriptors = s.runner.descriptors ∧
    (s.takeReached w).runner.store = s.runner.store ∧ (s.takeReached w).slots.minLead = s.slots.minLead ∧
    (s.takeReached w).slots.maxAhead = s.slots.maxAhead ∧ (s.takeReached w).engine.siteId = s.engine.siteId ∧
    (s.takeReached w).engine.groups = s.engine.groups ∧ (s.takeReached w).engine.intake = s.engine.intake ∧
    (s.takeReached w).engine.lastSource = s.engine.lastSource ∧ (s.takeReached w).engine.mask = s.engine.mask ∧
    (s.takeReached w).engine.reports = s.engine.reports ∧
    (s.takeReached w).engine.droppedFlag = s.engine.droppedFlag ∧
    (s.takeReached w).engine.counts = s.engine.counts := by
  unfold State.takeReached
  try dsimp only
  (repeat' split) <;> simp

@[simp] theorem State.takeStepped_keeps (w : Bool) :
    (s.takeStepped w).pending = s.pending ∧ (s.takeStepped w).pins = s.pins ∧ (s.takeStepped w).time = s.time ∧
    (s.takeStepped w).feeds = s.feeds ∧ (s.takeStepped w).delay = s.delay ∧ (s.takeStepped w).alarms = s.alarms ∧
    (s.takeStepped w).faultCount = s.faultCount ∧ (s.takeStepped w).openingTaken = s.openingTaken ∧
    (s.takeStepped w).eventDue = s.eventDue ∧ (s.takeStepped w).emitter.reasons = s.emitter.reasons ∧
    (s.takeStepped w).emitter.fallbackEnable = s.emitter.fallbackEnable ∧
    (s.takeStepped w).emitter.fallbackDelay = s.emitter.fallbackDelay ∧
    (s.takeStepped w).emitter.fallbackClip = s.emitter.fallbackClip ∧
    (s.takeStepped w).emitter.fallbackMap = s.emitter.fallbackMap ∧ (s.takeStepped w).clips.pages = s.clips.pages ∧
    (s.takeStepped w).clips.intake = s.clips.intake ∧ (s.takeStepped w).clips.record = s.clips.record ∧
    (s.takeStepped w).clips.counts = s.clips.counts ∧ (s.takeStepped w).splice.services = s.splice.services ∧
    (s.takeStepped w).splice.breakMap = s.splice.breakMap ∧ (s.takeStepped w).splice.badCues = s.splice.badCues ∧
    (s.takeStepped w).splice.intake = s.splice.intake ∧ (s.takeStepped w).runner.descriptors = s.runner.descriptors ∧
    (s.takeStepped w).runner.store = s.runner.store ∧ (s.takeStepped w).slots.minLead = s.slots.minLead ∧
    (s.takeStepped w).slots.maxAhead = s.slots.maxAhead ∧ (s.takeStepped w).engine.siteId = s.engine.siteId ∧
    (s.takeStepped w).engine.groups = s.engine.groups ∧ (s.takeStepped w).engine.intake = s.engine.intake ∧
    (s.takeStepped w).engine.lastSource = s.engine.lastSource ∧ (s.takeStepped w).engine.mask = s.engine.mask ∧
    (s.takeStepped w).engine.reports = s.engine.reports ∧
    (s.takeStepped w).engine.droppedFlag = s.engine.droppedFlag ∧
    (s.takeStepped w).engine.counts = s.engine.counts := by
  unfold State.takeStepped
  try dsimp only
  (repeat' split) <;> simp

@[simp] theorem State.blockCellTime_keeps (b : CurrentBlock) (k : Nat) (w : Bool) :
    (s.blockCellTime b k w).pending = s.pending ∧ (s.blockCellTime b k w).pins = s.pins ∧
    (s.blockCellTime b k w).time = s.time ∧ (s.blockCellTime b k w).feeds = s.feeds ∧
    (s.blockCellTime b k w).delay = s.delay ∧ (s.blockCellTime b k w).counters = s.counters ∧
    (s.blockCellTime b k w).alarms = s.alarms ∧ (s.blockCellTime b k w).runner = s.runner ∧
    (s.blockCellTime b k w).engine = s.engine ∧ (s.blockCellTime b k w).faultCount = s.faultCount ∧
    (s.blockCellTime b k w).openingTaken = s.openingTaken ∧ (s.blockCellTime b k w).eventDue = s.eventDue ∧
    (s.blockCellTime b k w).emitter.reasons = s.emitter.reasons ∧
    (s.blockCellTime b k w).emitter.fallbackEnable = s.emitter.fallbackEnable ∧
    (s.blockCellTime b k w).emitter.fallbackDelay = s.emitter.fallbackDelay ∧
    (s.blockCellTime b k w).emitter.fallbackClip = s.emitter.fallbackClip ∧
    (s.blockCellTime b k w).emitter.fallbackMap = s.emitter.fallbackMap ∧
    (s.blockCellTime b k w).emitter.phase = s.emitter.phase ∧ (s.blockCellTime b k w).clips.pages = s.clips.pages ∧
    (s.blockCellTime b k w).clips.intake = s.clips.intake ∧ (s.blockCellTime b k w).clips.record = s.clips.record ∧
    (s.blockCellTime b k w).clips.counts = s.clips.counts ∧ (s.blockCellTime b k w).clips.entries = s.clips.entries ∧
    (s.blockCellTime b k w).splice.services = s.splice.services ∧
    (s.blockCellTime b k w).splice.breakMap = s.splice.breakMap ∧
    (s.blockCellTime b k w).splice.badCues = s.splice.badCues ∧
    (s.blockCellTime b k w).splice.intake = s.splice.intake ∧
    (s.blockCellTime b k w).splice.lastNoticed = s.splice.lastNoticed ∧
    (s.blockCellTime b k w).splice.asRun = s.splice.asRun ∧ (s.blockCellTime b k w).slots.minLead = s.slots.minLead ∧
    (s.blockCellTime b k w).slots.maxAhead = s.slots.maxAhead := by
  unfold State.blockCellTime
  try dsimp only
  (repeat' split) <;> simp

@[simp] theorem State.cellTime_keeps (w : Bool) :
    (s.cellTime w).pending = s.pending ∧ (s.cellTime w).pins = s.pins ∧ (s.cellTime w).time = s.time ∧
    (s.cellTime w).feeds = s.feeds ∧ (s.cellTime w).delay = s.delay ∧ (s.cellTime w).counters = s.counters ∧
    (s.cellTime w).alarms = s.alarms ∧ (s.cellTime w).runner = s.runner ∧ (s.cellTime w).engine = s.engine ∧
    (s.cellTime w).faultCount = s.faultCount ∧ (s.cellTime w).openingTaken = s.openingTaken ∧
    (s.cellTime w).eventDue = s.eventDue ∧ (s.cellTime w).emitter.reasons = s.emitter.reasons ∧
    (s.cellTime w).emitter.fallbackEnable = s.emitter.fallbackEnable ∧
    (s.cellTime w).emitter.fallbackDelay = s.emitter.fallbackDelay ∧
    (s.cellTime w).emitter.fallbackClip = s.emitter.fallbackClip ∧
    (s.cellTime w).emitter.fallbackMap = s.emitter.fallbackMap ∧ (s.cellTime w).clips.pages = s.clips.pages ∧
    (s.cellTime w).clips.intake = s.clips.intake ∧ (s.cellTime w).clips.record = s.clips.record ∧
    (s.cellTime w).clips.counts = s.clips.counts ∧ (s.cellTime w).clips.entries = s.clips.entries ∧
    (s.cellTime w).splice.services = s.splice.services ∧ (s.cellTime w).splice.breakMap = s.splice.breakMap ∧
    (s.cellTime w).splice.badCues = s.splice.badCues ∧ (s.cellTime w).splice.intake = s.splice.intake ∧
    (s.cellTime w).splice.lastNoticed = s.splice.lastNoticed ∧ (s.cellTime w).splice.asRun = s.splice.asRun ∧
    (s.cellTime w).slots.minLead = s.slots.minLead ∧ (s.cellTime w).slots.maxAhead = s.slots.maxAhead := by
  unfold State.cellTime
  try dsimp only
  (repeat' split) <;> simp

@[simp] theorem State.enterFallback_keeps :
    (s.enterFallback).pending = s.pending ∧ (s.enterFallback).pins = s.pins ∧ (s.enterFallback).time = s.time ∧
    (s.enterFallback).portA = s.portA ∧ (s.enterFallback).portB = s.portB ∧ (s.enterFallback).feeds = s.feeds ∧
    (s.enterFallback).slots = s.slots ∧ (s.enterFallback).delay = s.delay ∧ (s.enterFallback).splice = s.splice ∧
    (s.enterFallback).counters = s.counters ∧ (s.enterFallback).alarms = s.alarms ∧
    (s.enterFallback).runner = s.runner ∧ (s.enterFallback).out = s.out ∧
    (s.enterFallback).faultCount = s.faultCount ∧ (s.enterFallback).openingTaken = s.openingTaken ∧
    (s.enterFallback).eventDue = s.eventDue ∧ (s.enterFallback).emitter.reasons = s.emitter.reasons ∧
    (s.enterFallback).emitter.phase = s.emitter.phase ∧ (s.enterFallback).emitter.period = s.emitter.period ∧
    (s.enterFallback).emitter.pendingPeriod = s.emitter.pendingPeriod ∧
    (s.enterFallback).emitter.current = s.emitter.current ∧
    (s.enterFallback).emitter.activeFeed = s.emitter.activeFeed ∧ (s.enterFallback).emitter.timer = s.emitter.timer ∧
    (s.enterFallback).emitter.fallbackEnable = s.emitter.fallbackEnable ∧
    (s.enterFallback).emitter.fallbackDelay = s.emitter.fallbackDelay ∧
    (s.enterFallback).emitter.fallbackClip = s.emitter.fallbackClip ∧
    (s.enterFallback).emitter.fallbackMap = s.emitter.fallbackMap ∧ (s.enterFallback).clips.pages = s.clips.pages ∧
    (s.enterFallback).clips.intake = s.clips.intake ∧ (s.enterFallback).clips.record = s.clips.record ∧
    (s.enterFallback).clips.counts = s.clips.counts ∧ (s.enterFallback).clips.entries = s.clips.entries ∧
    (s.enterFallback).engine.siteId = s.engine.siteId ∧ (s.enterFallback).engine.groups = s.engine.groups ∧
    (s.enterFallback).engine.intake = s.engine.intake ∧ (s.enterFallback).engine.lastSource = s.engine.lastSource ∧
    (s.enterFallback).engine.mask = s.engine.mask ∧ (s.enterFallback).engine.reports = s.engine.reports ∧
    (s.enterFallback).engine.droppedFlag = s.engine.droppedFlag ∧
    (s.enterFallback).engine.counts = s.engine.counts := by
  unfold State.enterFallback
  try dsimp only
  (repeat' split) <;> simp

@[simp] theorem State.fallbackTest_keeps :
    (s.fallbackTest).pending = s.pending ∧ (s.fallbackTest).pins = s.pins ∧ (s.fallbackTest).time = s.time ∧
    (s.fallbackTest).portA = s.portA ∧ (s.fallbackTest).portB = s.portB ∧ (s.fallbackTest).feeds = s.feeds ∧
    (s.fallbackTest).slots = s.slots ∧ (s.fallbackTest).delay = s.delay ∧ (s.fallbackTest).splice = s.splice ∧
    (s.fallbackTest).counters = s.counters ∧ (s.fallbackTest).alarms = s.alarms ∧ (s.fallbackTest).runner = s.runner ∧
    (s.fallbackTest).out = s.out ∧ (s.fallbackTest).faultCount = s.faultCount ∧
    (s.fallbackTest).openingTaken = s.openingTaken ∧ (s.fallbackTest).eventDue = s.eventDue ∧
    (s.fallbackTest).emitter.reasons = s.emitter.reasons ∧ (s.fallbackTest).emitter.phase = s.emitter.phase ∧
    (s.fallbackTest).emitter.period = s.emitter.period ∧
    (s.fallbackTest).emitter.pendingPeriod = s.emitter.pendingPeriod ∧
    (s.fallbackTest).emitter.current = s.emitter.current ∧
    (s.fallbackTest).emitter.activeFeed = s.emitter.activeFeed ∧ (s.fallbackTest).emitter.timer = s.emitter.timer ∧
    (s.fallbackTest).emitter.fallbackEnable = s.emitter.fallbackEnable ∧
    (s.fallbackTest).emitter.fallbackDelay = s.emitter.fallbackDelay ∧
    (s.fallbackTest).emitter.fallbackClip = s.emitter.fallbackClip ∧
    (s.fallbackTest).emitter.fallbackMap = s.emitter.fallbackMap ∧ (s.fallbackTest).clips.pages = s.clips.pages ∧
    (s.fallbackTest).clips.intake = s.clips.intake ∧ (s.fallbackTest).clips.record = s.clips.record ∧
    (s.fallbackTest).clips.counts = s.clips.counts ∧ (s.fallbackTest).clips.entries = s.clips.entries ∧
    (s.fallbackTest).engine.siteId = s.engine.siteId ∧ (s.fallbackTest).engine.groups = s.engine.groups ∧
    (s.fallbackTest).engine.intake = s.engine.intake ∧ (s.fallbackTest).engine.lastSource = s.engine.lastSource ∧
    (s.fallbackTest).engine.mask = s.engine.mask ∧ (s.fallbackTest).engine.reports = s.engine.reports ∧
    (s.fallbackTest).engine.droppedFlag = s.engine.droppedFlag ∧
    (s.fallbackTest).engine.counts = s.engine.counts := by
  unfold State.fallbackTest
  try dsimp only
  (repeat' split) <;> simp

@[simp] theorem State.emitterMillisecond_keeps :
    (s.emitterMillisecond).pending = s.pending ∧ (s.emitterMillisecond).pins = s.pins ∧
    (s.emitterMillisecond).time = s.time ∧ (s.emitterMillisecond).portA = s.portA ∧
    (s.emitterMillisecond).portB = s.portB ∧ (s.emitterMillisecond).feeds = s.feeds ∧
    (s.emitterMillisecond).slots = s.slots ∧ (s.emitterMillisecond).delay = s.delay ∧
    (s.emitterMillisecond).splice = s.splice ∧ (s.emitterMillisecond).counters = s.counters ∧
    (s.emitterMillisecond).alarms = s.alarms ∧ (s.emitterMillisecond).runner = s.runner ∧
    (s.emitterMillisecond).out = s.out ∧ (s.emitterMillisecond).faultCount = s.faultCount ∧
    (s.emitterMillisecond).openingTaken = s.openingTaken ∧ (s.emitterMillisecond).eventDue = s.eventDue ∧
    (s.emitterMillisecond).emitter.reasons = s.emitter.reasons ∧
    (s.emitterMillisecond).emitter.phase = s.emitter.phase ∧
    (s.emitterMillisecond).emitter.period = s.emitter.period ∧
    (s.emitterMillisecond).emitter.pendingPeriod = s.emitter.pendingPeriod ∧
    (s.emitterMillisecond).emitter.current = s.emitter.current ∧
    (s.emitterMillisecond).emitter.activeFeed = s.emitter.activeFeed ∧
    (s.emitterMillisecond).emitter.fallbackEnable = s.emitter.fallbackEnable ∧
    (s.emitterMillisecond).emitter.fallbackDelay = s.emitter.fallbackDelay ∧
    (s.emitterMillisecond).emitter.fallbackClip = s.emitter.fallbackClip ∧
    (s.emitterMillisecond).emitter.fallbackMap = s.emitter.fallbackMap ∧
    (s.emitterMillisecond).clips.pages = s.clips.pages ∧ (s.emitterMillisecond).clips.intake = s.clips.intake ∧
    (s.emitterMillisecond).clips.record = s.clips.record ∧ (s.emitterMillisecond).clips.counts = s.clips.counts ∧
    (s.emitterMillisecond).clips.entries = s.clips.entries ∧ (s.emitterMillisecond).engine.siteId = s.engine.siteId ∧
    (s.emitterMillisecond).engine.groups = s.engine.groups ∧ (s.emitterMillisecond).engine.intake = s.engine.intake ∧
    (s.emitterMillisecond).engine.lastSource = s.engine.lastSource ∧
    (s.emitterMillisecond).engine.mask = s.engine.mask ∧ (s.emitterMillisecond).engine.reports = s.engine.reports ∧
    (s.emitterMillisecond).engine.droppedFlag = s.engine.droppedFlag ∧
    (s.emitterMillisecond).engine.counts = s.engine.counts := by
  unfold State.emitterMillisecond
  try dsimp only
  (repeat' split) <;> simp

@[simp] theorem State.fallbackFault_keeps :
    (s.fallbackFault).pending = s.pending ∧ (s.fallbackFault).pins = s.pins ∧ (s.fallbackFault).time = s.time ∧
    (s.fallbackFault).portA = s.portA ∧ (s.fallbackFault).portB = s.portB ∧ (s.fallbackFault).feeds = s.feeds ∧
    (s.fallbackFault).slots = s.slots ∧ (s.fallbackFault).delay = s.delay ∧ (s.fallbackFault).clips = s.clips ∧
    (s.fallbackFault).splice = s.splice ∧ (s.fallbackFault).counters = s.counters ∧
    (s.fallbackFault).alarms = s.alarms ∧ (s.fallbackFault).runner = s.runner ∧ (s.fallbackFault).engine = s.engine ∧
    (s.fallbackFault).out = s.out ∧ (s.fallbackFault).faultCount = s.faultCount ∧
    (s.fallbackFault).openingTaken = s.openingTaken ∧ (s.fallbackFault).eventDue = s.eventDue ∧
    (s.fallbackFault).emitter.reasons = s.emitter.reasons ∧ (s.fallbackFault).emitter.phase = s.emitter.phase ∧
    (s.fallbackFault).emitter.period = s.emitter.period ∧
    (s.fallbackFault).emitter.pendingPeriod = s.emitter.pendingPeriod ∧
    (s.fallbackFault).emitter.current = s.emitter.current ∧
    (s.fallbackFault).emitter.activeFeed = s.emitter.activeFeed ∧
    (s.fallbackFault).emitter.fallbackDelay = s.emitter.fallbackDelay ∧
    (s.fallbackFault).emitter.fallbackClip = s.emitter.fallbackClip ∧
    (s.fallbackFault).emitter.fallbackMap = s.emitter.fallbackMap := by
  unfold State.fallbackFault
  try dsimp only
  (repeat' split) <;> simp

@[simp] theorem State.reportFault_keeps (n : Fin 9) (g : Word) :
    (s.reportFault n g).pending = s.pending ∧ (s.reportFault n g).pins = s.pins ∧ (s.reportFault n g).time = s.time ∧
    (s.reportFault n g).portA = s.portA ∧ (s.reportFault n g).portB = s.portB ∧ (s.reportFault n g).feeds = s.feeds ∧
    (s.reportFault n g).slots = s.slots ∧ (s.reportFault n g).delay = s.delay ∧
    (s.reportFault n g).counters = s.counters ∧ (s.reportFault n g).alarms = s.alarms ∧
    (s.reportFault n g).runner = s.runner ∧ (s.reportFault n g).out = s.out ∧
    (s.reportFault n g).faultCount = s.faultCount ∧ (s.reportFault n g).openingTaken = s.openingTaken ∧
    (s.reportFault n g).eventDue = s.eventDue ∧ (s.reportFault n g).emitter.reasons = s.emitter.reasons ∧
    (s.reportFault n g).clips.pages = s.clips.pages ∧ (s.reportFault n g).clips.intake = s.clips.intake ∧
    (s.reportFault n g).clips.record = s.clips.record ∧ (s.reportFault n g).clips.counts = s.clips.counts ∧
    (s.reportFault n g).splice.services = s.splice.services ∧
    (s.reportFault n g).splice.breakMap = s.splice.breakMap ∧ (s.reportFault n g).splice.badCues = s.splice.badCues ∧
    (s.reportFault n g).splice.intake = s.splice.intake ∧ (s.reportFault n g).engine.siteId = s.engine.siteId ∧
    (s.reportFault n g).engine.groups = s.engine.groups ∧ (s.reportFault n g).engine.intake = s.engine.intake ∧
    (s.reportFault n g).engine.lastSource = s.engine.lastSource ∧ (s.reportFault n g).engine.mask = s.engine.mask ∧
    (s.reportFault n g).engine.reports = s.engine.reports ∧
    (s.reportFault n g).engine.droppedFlag = s.engine.droppedFlag ∧
    (s.reportFault n g).engine.counts = s.engine.counts := by
  unfold State.reportFault
  try dsimp only
  (repeat' split) <;> simp

@[simp] theorem State.readFails_keeps (r : FetchRead) :
    (s.readFails r).pending = s.pending ∧ (s.readFails r).pins = s.pins ∧ (s.readFails r).time = s.time ∧
    (s.readFails r).portA = s.portA ∧ (s.readFails r).portB = s.portB ∧ (s.readFails r).feeds = s.feeds ∧
    (s.readFails r).slots = s.slots ∧ (s.readFails r).delay = s.delay ∧ (s.readFails r).counters = s.counters ∧
    (s.readFails r).alarms = s.alarms ∧ (s.readFails r).runner = s.runner ∧ (s.readFails r).out = s.out ∧
    (s.readFails r).faultCount = s.faultCount ∧ (s.readFails r).openingTaken = s.openingTaken ∧
    (s.readFails r).eventDue = s.eventDue ∧ (s.readFails r).emitter.reasons = s.emitter.reasons ∧
    (s.readFails r).clips.pages = s.clips.pages ∧ (s.readFails r).clips.intake = s.clips.intake ∧
    (s.readFails r).splice.services = s.splice.services ∧ (s.readFails r).splice.breakMap = s.splice.breakMap ∧
    (s.readFails r).splice.badCues = s.splice.badCues ∧ (s.readFails r).splice.intake = s.splice.intake ∧
    (s.readFails r).engine.siteId = s.engine.siteId ∧ (s.readFails r).engine.groups = s.engine.groups ∧
    (s.readFails r).engine.intake = s.engine.intake ∧ (s.readFails r).engine.lastSource = s.engine.lastSource ∧
    (s.readFails r).engine.mask = s.engine.mask ∧ (s.readFails r).engine.reports = s.engine.reports ∧
    (s.readFails r).engine.droppedFlag = s.engine.droppedFlag ∧ (s.readFails r).engine.counts = s.engine.counts := by
  unfold State.readFails
  try dsimp only
  (repeat' split) <;> simp

@[simp] theorem State.readEnds_keeps (r : FetchRead) (w : Bool) :
    (s.readEnds r w).pending = s.pending ∧ (s.readEnds r w).pins = s.pins ∧ (s.readEnds r w).time = s.time ∧
    (s.readEnds r w).portA = s.portA ∧ (s.readEnds r w).portB = s.portB ∧ (s.readEnds r w).feeds = s.feeds ∧
    (s.readEnds r w).slots = s.slots ∧ (s.readEnds r w).delay = s.delay ∧ (s.readEnds r w).counters = s.counters ∧
    (s.readEnds r w).alarms = s.alarms ∧ (s.readEnds r w).runner = s.runner ∧ (s.readEnds r w).out = s.out ∧
    (s.readEnds r w).faultCount = s.faultCount ∧ (s.readEnds r w).openingTaken = s.openingTaken ∧
    (s.readEnds r w).eventDue = s.eventDue ∧ (s.readEnds r w).emitter.reasons = s.emitter.reasons ∧
    (s.readEnds r w).clips.pages = s.clips.pages ∧ (s.readEnds r w).clips.intake = s.clips.intake ∧
    (s.readEnds r w).splice.services = s.splice.services ∧ (s.readEnds r w).splice.breakMap = s.splice.breakMap ∧
    (s.readEnds r w).splice.badCues = s.splice.badCues ∧ (s.readEnds r w).splice.intake = s.splice.intake ∧
    (s.readEnds r w).engine.siteId = s.engine.siteId ∧ (s.readEnds r w).engine.groups = s.engine.groups ∧
    (s.readEnds r w).engine.intake = s.engine.intake ∧ (s.readEnds r w).engine.lastSource = s.engine.lastSource ∧
    (s.readEnds r w).engine.mask = s.engine.mask ∧ (s.readEnds r w).engine.reports = s.engine.reports ∧
    (s.readEnds r w).engine.droppedFlag = s.engine.droppedFlag ∧
    (s.readEnds r w).engine.counts = s.engine.counts := by
  unfold State.readEnds
  try dsimp only
  (repeat' split) <;> simp

/-! ### the Site Time Unit -/

@[simp] theorem State.changeState_keeps (x : TimeState) :
    (s.changeState x).pending = s.pending ∧ (s.changeState x).pins = s.pins ∧ (s.changeState x).feeds = s.feeds ∧
    (s.changeState x).delay = s.delay ∧ (s.changeState x).clips = s.clips ∧ (s.changeState x).splice = s.splice ∧
    (s.changeState x).counters = s.counters ∧ (s.changeState x).alarms = s.alarms ∧
    (s.changeState x).runner = s.runner ∧ (s.changeState x).out = s.out ∧
    (s.changeState x).faultCount = s.faultCount ∧ (s.changeState x).openingTaken = s.openingTaken ∧
    (s.changeState x).eventDue = s.eventDue ∧ (s.changeState x).emitter.phase = s.emitter.phase ∧
    (s.changeState x).emitter.period = s.emitter.period ∧
    (s.changeState x).emitter.pendingPeriod = s.emitter.pendingPeriod ∧
    (s.changeState x).emitter.activeFeed = s.emitter.activeFeed ∧
    (s.changeState x).emitter.fallbackEnable = s.emitter.fallbackEnable ∧
    (s.changeState x).emitter.fallbackDelay = s.emitter.fallbackDelay ∧
    (s.changeState x).emitter.fallbackClip = s.emitter.fallbackClip ∧
    (s.changeState x).emitter.fallbackMap = s.emitter.fallbackMap ∧
    (s.changeState x).slots.minLead = s.slots.minLead ∧ (s.changeState x).slots.maxAhead = s.slots.maxAhead ∧
    (s.changeState x).slots.queue = s.slots.queue ∧ (s.changeState x).slots.counts = s.slots.counts ∧
    (s.changeState x).time.seconds = s.time.seconds ∧ (s.changeState x).time.source = s.time.source ∧
    (s.changeState x).time.goodRun = s.time.goodRun ∧ (s.changeState x).time.outlierRun = s.time.outlierRun ∧
    (s.changeState x).time.missedRun = s.time.missedRun ∧ (s.changeState x).time.holdover = s.time.holdover ∧
    (s.changeState x).time.markSeen = s.time.markSeen ∧ (s.changeState x).time.window = s.time.window ∧
    (s.changeState x).time.holdoverLimit = s.time.holdoverLimit ∧ (s.changeState x).time.ticks = s.time.ticks ∧
    (s.changeState x).engine.siteId = s.engine.siteId ∧ (s.changeState x).engine.groups = s.engine.groups ∧
    (s.changeState x).engine.intake = s.engine.intake ∧ (s.changeState x).engine.lastSource = s.engine.lastSource ∧
    (s.changeState x).engine.mask = s.engine.mask ∧ (s.changeState x).engine.reports = s.engine.reports ∧
    (s.changeState x).engine.droppedFlag = s.engine.droppedFlag ∧
    (s.changeState x).engine.counts = s.engine.counts := by
  unfold State.changeState
  try dsimp only
  (repeat' split) <;> simp

@[simp] theorem State.enterAcquiring_keeps :
    (s.enterAcquiring).pending = s.pending ∧ (s.enterAcquiring).pins = s.pins ∧ (s.enterAcquiring).feeds = s.feeds ∧
    (s.enterAcquiring).delay = s.delay ∧ (s.enterAcquiring).clips = s.clips ∧ (s.enterAcquiring).splice = s.splice ∧
    (s.enterAcquiring).counters = s.counters ∧ (s.enterAcquiring).alarms = s.alarms ∧
    (s.enterAcquiring).runner = s.runner ∧ (s.enterAcquiring).out = s.out ∧
    (s.enterAcquiring).faultCount = s.faultCount ∧ (s.enterAcquiring).openingTaken = s.openingTaken ∧
    (s.enterAcquiring).eventDue = s.eventDue ∧ (s.enterAcquiring).emitter.phase = s.emitter.phase ∧
    (s.enterAcquiring).emitter.period = s.emitter.period ∧
    (s.enterAcquiring).emitter.pendingPeriod = s.emitter.pendingPeriod ∧
    (s.enterAcquiring).emitter.activeFeed = s.emitter.activeFeed ∧
    (s.enterAcquiring).emitter.fallbackEnable = s.emitter.fallbackEnable ∧
    (s.enterAcquiring).emitter.fallbackDelay = s.emitter.fallbackDelay ∧
    (s.enterAcquiring).emitter.fallbackClip = s.emitter.fallbackClip ∧
    (s.enterAcquiring).emitter.fallbackMap = s.emitter.fallbackMap ∧
    (s.enterAcquiring).slots.minLead = s.slots.minLead ∧ (s.enterAcquiring).slots.maxAhead = s.slots.maxAhead ∧
    (s.enterAcquiring).slots.queue = s.slots.queue ∧ (s.enterAcquiring).slots.counts = s.slots.counts ∧
    (s.enterAcquiring).time.seconds = s.time.seconds ∧ (s.enterAcquiring).time.source = s.time.source ∧
    (s.enterAcquiring).time.holdover = s.time.holdover ∧ (s.enterAcquiring).time.markSeen = s.time.markSeen ∧
    (s.enterAcquiring).time.window = s.time.window ∧ (s.enterAcquiring).time.holdoverLimit = s.time.holdoverLimit ∧
    (s.enterAcquiring).time.ticks = s.time.ticks ∧ (s.enterAcquiring).engine.siteId = s.engine.siteId ∧
    (s.enterAcquiring).engine.groups = s.engine.groups ∧ (s.enterAcquiring).engine.intake = s.engine.intake ∧
    (s.enterAcquiring).engine.lastSource = s.engine.lastSource ∧ (s.enterAcquiring).engine.mask = s.engine.mask ∧
    (s.enterAcquiring).engine.reports = s.engine.reports ∧
    (s.enterAcquiring).engine.droppedFlag = s.engine.droppedFlag ∧
    (s.enterAcquiring).engine.counts = s.engine.counts := by
  unfold State.enterAcquiring
  try dsimp only
  (repeat' split) <;> simp

@[simp] theorem State.enterLocked_keeps :
    (s.enterLocked).pending = s.pending ∧ (s.enterLocked).pins = s.pins ∧ (s.enterLocked).feeds = s.feeds ∧
    (s.enterLocked).delay = s.delay ∧ (s.enterLocked).clips = s.clips ∧ (s.enterLocked).splice = s.splice ∧
    (s.enterLocked).counters = s.counters ∧ (s.enterLocked).alarms = s.alarms ∧ (s.enterLocked).runner = s.runner ∧
    (s.enterLocked).out = s.out ∧ (s.enterLocked).faultCount = s.faultCount ∧
    (s.enterLocked).openingTaken = s.openingTaken ∧ (s.enterLocked).eventDue = s.eventDue ∧
    (s.enterLocked).emitter.phase = s.emitter.phase ∧ (s.enterLocked).emitter.period = s.emitter.period ∧
    (s.enterLocked).emitter.pendingPeriod = s.emitter.pendingPeriod ∧
    (s.enterLocked).emitter.activeFeed = s.emitter.activeFeed ∧
    (s.enterLocked).emitter.fallbackEnable = s.emitter.fallbackEnable ∧
    (s.enterLocked).emitter.fallbackDelay = s.emitter.fallbackDelay ∧
    (s.enterLocked).emitter.fallbackClip = s.emitter.fallbackClip ∧
    (s.enterLocked).emitter.fallbackMap = s.emitter.fallbackMap ∧ (s.enterLocked).slots.minLead = s.slots.minLead ∧
    (s.enterLocked).slots.maxAhead = s.slots.maxAhead ∧ (s.enterLocked).slots.queue = s.slots.queue ∧
    (s.enterLocked).slots.counts = s.slots.counts ∧ (s.enterLocked).time.seconds = s.time.seconds ∧
    (s.enterLocked).time.source = s.time.source ∧ (s.enterLocked).time.goodRun = s.time.goodRun ∧
    (s.enterLocked).time.holdover = s.time.holdover ∧ (s.enterLocked).time.markSeen = s.time.markSeen ∧
    (s.enterLocked).time.window = s.time.window ∧ (s.enterLocked).time.holdoverLimit = s.time.holdoverLimit ∧
    (s.enterLocked).time.ticks = s.time.ticks ∧ (s.enterLocked).engine.siteId = s.engine.siteId ∧
    (s.enterLocked).engine.groups = s.engine.groups ∧ (s.enterLocked).engine.intake = s.engine.intake ∧
    (s.enterLocked).engine.lastSource = s.engine.lastSource ∧ (s.enterLocked).engine.mask = s.engine.mask ∧
    (s.enterLocked).engine.reports = s.engine.reports ∧ (s.enterLocked).engine.droppedFlag = s.engine.droppedFlag ∧
    (s.enterLocked).engine.counts = s.engine.counts := by
  unfold State.enterLocked
  try dsimp only
  (repeat' split) <;> simp

@[simp] theorem State.enterHoldover_keeps :
    (s.enterHoldover).pending = s.pending ∧ (s.enterHoldover).pins = s.pins ∧ (s.enterHoldover).feeds = s.feeds ∧
    (s.enterHoldover).delay = s.delay ∧ (s.enterHoldover).clips = s.clips ∧ (s.enterHoldover).splice = s.splice ∧
    (s.enterHoldover).counters = s.counters ∧ (s.enterHoldover).alarms = s.alarms ∧
    (s.enterHoldover).runner = s.runner ∧ (s.enterHoldover).out = s.out ∧
    (s.enterHoldover).faultCount = s.faultCount ∧ (s.enterHoldover).openingTaken = s.openingTaken ∧
    (s.enterHoldover).eventDue = s.eventDue ∧ (s.enterHoldover).emitter.phase = s.emitter.phase ∧
    (s.enterHoldover).emitter.period = s.emitter.period ∧
    (s.enterHoldover).emitter.pendingPeriod = s.emitter.pendingPeriod ∧
    (s.enterHoldover).emitter.activeFeed = s.emitter.activeFeed ∧
    (s.enterHoldover).emitter.fallbackEnable = s.emitter.fallbackEnable ∧
    (s.enterHoldover).emitter.fallbackDelay = s.emitter.fallbackDelay ∧
    (s.enterHoldover).emitter.fallbackClip = s.emitter.fallbackClip ∧
    (s.enterHoldover).emitter.fallbackMap = s.emitter.fallbackMap ∧
    (s.enterHoldover).slots.minLead = s.slots.minLead ∧ (s.enterHoldover).slots.maxAhead = s.slots.maxAhead ∧
    (s.enterHoldover).slots.queue = s.slots.queue ∧ (s.enterHoldover).slots.counts = s.slots.counts ∧
    (s.enterHoldover).time.seconds = s.time.seconds ∧ (s.enterHoldover).time.source = s.time.source ∧
    (s.enterHoldover).time.goodRun = s.time.goodRun ∧ (s.enterHoldover).time.outlierRun = s.time.outlierRun ∧
    (s.enterHoldover).time.missedRun = s.time.missedRun ∧ (s.enterHoldover).time.markSeen = s.time.markSeen ∧
    (s.enterHoldover).time.window = s.time.window ∧ (s.enterHoldover).time.holdoverLimit = s.time.holdoverLimit ∧
    (s.enterHoldover).time.ticks = s.time.ticks ∧ (s.enterHoldover).engine.siteId = s.engine.siteId ∧
    (s.enterHoldover).engine.groups = s.engine.groups ∧ (s.enterHoldover).engine.intake = s.engine.intake ∧
    (s.enterHoldover).engine.lastSource = s.engine.lastSource ∧ (s.enterHoldover).engine.mask = s.engine.mask ∧
    (s.enterHoldover).engine.reports = s.engine.reports ∧
    (s.enterHoldover).engine.droppedFlag = s.engine.droppedFlag ∧
    (s.enterHoldover).engine.counts = s.engine.counts := by
  unfold State.enterHoldover
  try dsimp only
  (repeat' split) <;> simp

@[simp] theorem State.returnReference_keeps :
    (s.returnReference).pending = s.pending ∧ (s.returnReference).pins = s.pins ∧
    (s.returnReference).portA = s.portA ∧ (s.returnReference).portB = s.portB ∧ (s.returnReference).feeds = s.feeds ∧
    (s.returnReference).slots = s.slots ∧ (s.returnReference).delay = s.delay ∧
    (s.returnReference).emitter = s.emitter ∧ (s.returnReference).clips = s.clips ∧
    (s.returnReference).channels = s.channels ∧ (s.returnReference).splice = s.splice ∧
    (s.returnReference).counters = s.counters ∧ (s.returnReference).alarms = s.alarms ∧
    (s.returnReference).runner = s.runner ∧ (s.returnReference).out = s.out ∧
    (s.returnReference).faultCount = s.faultCount ∧ (s.returnReference).openingTaken = s.openingTaken ∧
    (s.returnReference).eventDue = s.eventDue ∧ (s.returnReference).time.seconds = s.time.seconds ∧
    (s.returnReference).time.state = s.time.state ∧ (s.returnReference).time.goodRun = s.time.goodRun ∧
    (s.returnReference).time.outlierRun = s.time.outlierRun ∧ (s.returnReference).time.missedRun = s.time.missedRun ∧
    (s.returnReference).time.holdover = s.time.holdover ∧ (s.returnReference).time.markSeen = s.time.markSeen ∧
    (s.returnReference).time.window = s.time.window ∧ (s.returnReference).time.holdoverLimit = s.time.holdoverLimit ∧
    (s.returnReference).time.ticks = s.time.ticks ∧ (s.returnReference).engine.siteId = s.engine.siteId ∧
    (s.returnReference).engine.groups = s.engine.groups ∧ (s.returnReference).engine.intake = s.engine.intake ∧
    (s.returnReference).engine.lastSource = s.engine.lastSource ∧ (s.returnReference).engine.mask = s.engine.mask ∧
    (s.returnReference).engine.reports = s.engine.reports ∧
    (s.returnReference).engine.droppedFlag = s.engine.droppedFlag ∧
    (s.returnReference).engine.counts = s.engine.counts := by
  unfold State.returnReference
  try dsimp only
  (repeat' split) <;> simp

@[simp] theorem State.countHoldover_keeps :
    (s.countHoldover).pending = s.pending ∧ (s.countHoldover).pins = s.pins ∧ (s.countHoldover).feeds = s.feeds ∧
    (s.countHoldover).delay = s.delay ∧ (s.countHoldover).clips = s.clips ∧ (s.countHoldover).splice = s.splice ∧
    (s.countHoldover).counters = s.counters ∧ (s.countHoldover).alarms = s.alarms ∧
    (s.countHoldover).runner = s.runner ∧ (s.countHoldover).out = s.out ∧
    (s.countHoldover).faultCount = s.faultCount ∧ (s.countHoldover).openingTaken = s.openingTaken ∧
    (s.countHoldover).eventDue = s.eventDue ∧ (s.countHoldover).emitter.phase = s.emitter.phase ∧
    (s.countHoldover).emitter.period = s.emitter.period ∧
    (s.countHoldover).emitter.pendingPeriod = s.emitter.pendingPeriod ∧
    (s.countHoldover).emitter.activeFeed = s.emitter.activeFeed ∧
    (s.countHoldover).emitter.fallbackEnable = s.emitter.fallbackEnable ∧
    (s.countHoldover).emitter.fallbackDelay = s.emitter.fallbackDelay ∧
    (s.countHoldover).emitter.fallbackClip = s.emitter.fallbackClip ∧
    (s.countHoldover).emitter.fallbackMap = s.emitter.fallbackMap ∧
    (s.countHoldover).slots.minLead = s.slots.minLead ∧ (s.countHoldover).slots.maxAhead = s.slots.maxAhead ∧
    (s.countHoldover).slots.queue = s.slots.queue ∧ (s.countHoldover).slots.counts = s.slots.counts ∧
    (s.countHoldover).time.seconds = s.time.seconds ∧ (s.countHoldover).time.source = s.time.source ∧
    (s.countHoldover).time.goodRun = s.time.goodRun ∧ (s.countHoldover).time.outlierRun = s.time.outlierRun ∧
    (s.countHoldover).time.missedRun = s.time.missedRun ∧ (s.countHoldover).time.markSeen = s.time.markSeen ∧
    (s.countHoldover).time.window = s.time.window ∧ (s.countHoldover).time.holdoverLimit = s.time.holdoverLimit ∧
    (s.countHoldover).time.ticks = s.time.ticks ∧ (s.countHoldover).engine.siteId = s.engine.siteId ∧
    (s.countHoldover).engine.groups = s.engine.groups ∧ (s.countHoldover).engine.intake = s.engine.intake ∧
    (s.countHoldover).engine.lastSource = s.engine.lastSource ∧ (s.countHoldover).engine.mask = s.engine.mask ∧
    (s.countHoldover).engine.reports = s.engine.reports ∧
    (s.countHoldover).engine.droppedFlag = s.engine.droppedFlag ∧
    (s.countHoldover).engine.counts = s.engine.counts := by
  unfold State.countHoldover
  try dsimp only
  (repeat' split) <;> simp

@[simp] theorem State.ownSecond_keeps :
    (s.ownSecond).pending = s.pending ∧ (s.ownSecond).pins = s.pins ∧ (s.ownSecond).feeds = s.feeds ∧
    (s.ownSecond).delay = s.delay ∧ (s.ownSecond).clips = s.clips ∧ (s.ownSecond).splice = s.splice ∧
    (s.ownSecond).counters = s.counters ∧ (s.ownSecond).alarms = s.alarms ∧ (s.ownSecond).runner = s.runner ∧
    (s.ownSecond).out = s.out ∧ (s.ownSecond).faultCount = s.faultCount ∧
    (s.ownSecond).openingTaken = s.openingTaken ∧ (s.ownSecond).eventDue = s.eventDue ∧
    (s.ownSecond).emitter.phase = s.emitter.phase ∧ (s.ownSecond).emitter.period = s.emitter.period ∧
    (s.ownSecond).emitter.pendingPeriod = s.emitter.pendingPeriod ∧
    (s.ownSecond).emitter.activeFeed = s.emitter.activeFeed ∧
    (s.ownSecond).emitter.fallbackEnable = s.emitter.fallbackEnable ∧
    (s.ownSecond).emitter.fallbackDelay = s.emitter.fallbackDelay ∧
    (s.ownSecond).emitter.fallbackClip = s.emitter.fallbackClip ∧
    (s.ownSecond).emitter.fallbackMap = s.emitter.fallbackMap ∧ (s.ownSecond).slots.minLead = s.slots.minLead ∧
    (s.ownSecond).slots.maxAhead = s.slots.maxAhead ∧ (s.ownSecond).slots.queue = s.slots.queue ∧
    (s.ownSecond).slots.counts = s.slots.counts ∧ (s.ownSecond).time.seconds = s.time.seconds ∧
    (s.ownSecond).time.goodRun = s.time.goodRun ∧ (s.ownSecond).time.outlierRun = s.time.outlierRun ∧
    (s.ownSecond).time.missedRun = s.time.missedRun ∧ (s.ownSecond).time.markSeen = s.time.markSeen ∧
    (s.ownSecond).time.window = s.time.window ∧ (s.ownSecond).time.holdoverLimit = s.time.holdoverLimit ∧
    (s.ownSecond).time.ticks = s.time.ticks ∧ (s.ownSecond).engine.siteId = s.engine.siteId ∧
    (s.ownSecond).engine.groups = s.engine.groups ∧ (s.ownSecond).engine.intake = s.engine.intake ∧
    (s.ownSecond).engine.lastSource = s.engine.lastSource ∧ (s.ownSecond).engine.mask = s.engine.mask ∧
    (s.ownSecond).engine.reports = s.engine.reports ∧ (s.ownSecond).engine.droppedFlag = s.engine.droppedFlag ∧
    (s.ownSecond).engine.counts = s.engine.counts := by
  unfold State.ownSecond
  try dsimp only
  (repeat' split) <;> simp

@[simp] theorem State.neighbourSecond_keeps :
    (s.neighbourSecond).pending = s.pending ∧ (s.neighbourSecond).pins = s.pins ∧ (s.neighbourSecond).time = s.time ∧
    (s.neighbourSecond).portA = s.portA ∧ (s.neighbourSecond).portB = s.portB ∧ (s.neighbourSecond).feeds = s.feeds ∧
    (s.neighbourSecond).slots = s.slots ∧ (s.neighbourSecond).delay = s.delay ∧
    (s.neighbourSecond).emitter = s.emitter ∧ (s.neighbourSecond).clips = s.clips ∧
    (s.neighbourSecond).channels = s.channels ∧ (s.neighbourSecond).splice = s.splice ∧
    (s.neighbourSecond).alarms = s.alarms ∧ (s.neighbourSecond).out = s.out ∧
    (s.neighbourSecond).faultCount = s.faultCount ∧ (s.neighbourSecond).openingTaken = s.openingTaken ∧
    (s.neighbourSecond).eventDue = s.eventDue ∧ (s.neighbourSecond).runner.descriptors = s.runner.descriptors ∧
    (s.neighbourSecond).runner.store = s.runner.store ∧ (s.neighbourSecond).engine.siteId = s.engine.siteId ∧
    (s.neighbourSecond).engine.groups = s.engine.groups ∧ (s.neighbourSecond).engine.intake = s.engine.intake ∧
    (s.neighbourSecond).engine.lastSource = s.engine.lastSource ∧
    (s.neighbourSecond).engine.mask = s.engine.mask := by
  unfold State.neighbourSecond
  try dsimp only
  (repeat' split) <;> simp

@[simp] theorem State.neighbourMillisecond_keeps :
    (s.neighbourMillisecond).pending = s.pending ∧ (s.neighbourMillisecond).pins = s.pins ∧
    (s.neighbourMillisecond).time = s.time ∧ (s.neighbourMillisecond).feeds = s.feeds ∧
    (s.neighbourMillisecond).delay = s.delay ∧ (s.neighbourMillisecond).splice = s.splice ∧
    (s.neighbourMillisecond).out = s.out ∧ (s.neighbourMillisecond).faultCount = s.faultCount ∧
    (s.neighbourMillisecond).openingTaken = s.openingTaken ∧ (s.neighbourMillisecond).eventDue = s.eventDue ∧
    (s.neighbourMillisecond).emitter.reasons = s.emitter.reasons ∧
    (s.neighbourMillisecond).emitter.phase = s.emitter.phase ∧
    (s.neighbourMillisecond).emitter.period = s.emitter.period ∧
    (s.neighbourMillisecond).emitter.pendingPeriod = s.emitter.pendingPeriod ∧
    (s.neighbourMillisecond).emitter.current = s.emitter.current ∧
    (s.neighbourMillisecond).emitter.activeFeed = s.emitter.activeFeed ∧
    (s.neighbourMillisecond).emitter.fallbackEnable = s.emitter.fallbackEnable ∧
    (s.neighbourMillisecond).emitter.fallbackDelay = s.emitter.fallbackDelay ∧
    (s.neighbourMillisecond).emitter.fallbackClip = s.emitter.fallbackClip ∧
    (s.neighbourMillisecond).emitter.fallbackMap = s.emitter.fallbackMap ∧
    (s.neighbourMillisecond).clips.pages = s.clips.pages ∧ (s.neighbourMillisecond).clips.intake = s.clips.intake ∧
    (s.neighbourMillisecond).clips.record = s.clips.record ∧ (s.neighbourMillisecond).clips.counts = s.clips.counts ∧
    (s.neighbourMillisecond).clips.entries = s.clips.entries ∧
    (s.neighbourMillisecond).runner.descriptors = s.runner.descriptors ∧
    (s.neighbourMillisecond).runner.store = s.runner.store ∧
    (s.neighbourMillisecond).slots.minLead = s.slots.minLead ∧
    (s.neighbourMillisecond).slots.maxAhead = s.slots.maxAhead ∧
    (s.neighbourMillisecond).slots.queue = s.slots.queue ∧ (s.neighbourMillisecond).engine.siteId = s.engine.siteId ∧
    (s.neighbourMillisecond).engine.groups = s.engine.groups ∧
    (s.neighbourMillisecond).engine.intake = s.engine.intake ∧
    (s.neighbourMillisecond).engine.lastSource = s.engine.lastSource ∧
    (s.neighbourMillisecond).engine.mask = s.engine.mask ∧
    (s.neighbourMillisecond).engine.reports = s.engine.reports ∧
    (s.neighbourMillisecond).engine.droppedFlag = s.engine.droppedFlag ∧
    (s.neighbourMillisecond).engine.counts = s.engine.counts := by
  unfold State.neighbourMillisecond
  try dsimp only
  (repeat' split) <;> simp

@[simp] theorem State.boundary_keeps :
    (s.boundary).pending = s.pending ∧ (s.boundary).pins = s.pins ∧ (s.boundary).feeds = s.feeds ∧
    (s.boundary).delay = s.delay ∧ (s.boundary).splice = s.splice ∧ (s.boundary).out = s.out ∧
    (s.boundary).faultCount = s.faultCount ∧ (s.boundary).emitter.phase = s.emitter.phase ∧
    (s.boundary).emitter.period = s.emitter.period ∧ (s.boundary).emitter.pendingPeriod = s.emitter.pendingPeriod ∧
    (s.boundary).emitter.activeFeed = s.emitter.activeFeed ∧
    (s.boundary).emitter.fallbackEnable = s.emitter.fallbackEnable ∧
    (s.boundary).emitter.fallbackDelay = s.emitter.fallbackDelay ∧
    (s.boundary).emitter.fallbackClip = s.emitter.fallbackClip ∧
    (s.boundary).emitter.fallbackMap = s.emitter.fallbackMap ∧ (s.boundary).clips.pages = s.clips.pages ∧
    (s.boundary).clips.intake = s.clips.intake ∧ (s.boundary).clips.record = s.clips.record ∧
    (s.boundary).clips.counts = s.clips.counts ∧ (s.boundary).clips.entries = s.clips.entries ∧
    (s.boundary).runner.descriptors = s.runner.descriptors ∧ (s.boundary).runner.store = s.runner.store ∧
    (s.boundary).slots.minLead = s.slots.minLead ∧ (s.boundary).slots.maxAhead = s.slots.maxAhead ∧
    (s.boundary).slots.queue = s.slots.queue ∧ (s.boundary).time.window = s.time.window ∧
    (s.boundary).time.holdoverLimit = s.time.holdoverLimit ∧ (s.boundary).engine.siteId = s.engine.siteId ∧
    (s.boundary).engine.groups = s.engine.groups ∧ (s.boundary).engine.intake = s.engine.intake ∧
    (s.boundary).engine.lastSource = s.engine.lastSource ∧ (s.boundary).engine.mask = s.engine.mask ∧
    (s.boundary).openingTaken = s.openingTaken ∧ (s.boundary).time.ticks = s.time.ticks ∧
    (s.boundary).time.seconds = s.time.seconds ∧ (s.boundary).time.markSeen = s.time.markSeen ∧
    (s.boundary).time.goodRun = s.time.goodRun ∧ (s.boundary).time.outlierRun = s.time.outlierRun ∧
    (s.boundary).time.missedRun = s.time.missedRun := by
  simp [State.boundary]

@[simp] theorem State.issueEvent_keeps :
    (s.issueEvent).pending = s.pending ∧ (s.issueEvent).pins = s.pins ∧ (s.issueEvent).feeds = s.feeds ∧
    (s.issueEvent).delay = s.delay ∧ (s.issueEvent).splice = s.splice ∧ (s.issueEvent).out = s.out ∧
    (s.issueEvent).faultCount = s.faultCount ∧ (s.issueEvent).emitter.phase = s.emitter.phase ∧
    (s.issueEvent).emitter.period = s.emitter.period ∧
    (s.issueEvent).emitter.pendingPeriod = s.emitter.pendingPeriod ∧
    (s.issueEvent).emitter.activeFeed = s.emitter.activeFeed ∧
    (s.issueEvent).emitter.fallbackEnable = s.emitter.fallbackEnable ∧
    (s.issueEvent).emitter.fallbackDelay = s.emitter.fallbackDelay ∧
    (s.issueEvent).emitter.fallbackClip = s.emitter.fallbackClip ∧
    (s.issueEvent).emitter.fallbackMap = s.emitter.fallbackMap ∧ (s.issueEvent).clips.pages = s.clips.pages ∧
    (s.issueEvent).clips.intake = s.clips.intake ∧ (s.issueEvent).clips.record = s.clips.record ∧
    (s.issueEvent).clips.counts = s.clips.counts ∧ (s.issueEvent).clips.entries = s.clips.entries ∧
    (s.issueEvent).runner.descriptors = s.runner.descriptors ∧ (s.issueEvent).runner.store = s.runner.store ∧
    (s.issueEvent).slots.minLead = s.slots.minLead ∧ (s.issueEvent).slots.maxAhead = s.slots.maxAhead ∧
    (s.issueEvent).slots.queue = s.slots.queue ∧ (s.issueEvent).time.window = s.time.window ∧
    (s.issueEvent).time.holdoverLimit = s.time.holdoverLimit ∧ (s.issueEvent).engine.siteId = s.engine.siteId ∧
    (s.issueEvent).engine.groups = s.engine.groups ∧ (s.issueEvent).engine.intake = s.engine.intake ∧
    (s.issueEvent).engine.lastSource = s.engine.lastSource ∧ (s.issueEvent).engine.mask = s.engine.mask ∧
    (s.issueEvent).openingTaken = s.openingTaken ∧ (s.issueEvent).time.ticks = s.time.ticks ∧
    (s.issueEvent).time.seconds = s.time.seconds ∧ (s.issueEvent).time.markSeen = s.time.markSeen ∧
    (s.issueEvent).time.goodRun = s.time.goodRun ∧ (s.issueEvent).time.outlierRun = s.time.outlierRun ∧
    (s.issueEvent).time.missedRun = s.time.missedRun := by
  unfold State.issueEvent
  (repeat' split) <;> simp

@[simp] theorem State.settleEvent_keeps :
    (s.settleEvent).pending = s.pending ∧ (s.settleEvent).pins = s.pins ∧ (s.settleEvent).feeds = s.feeds ∧
    (s.settleEvent).delay = s.delay ∧ (s.settleEvent).splice = s.splice ∧ (s.settleEvent).out = s.out ∧
    (s.settleEvent).faultCount = s.faultCount ∧ (s.settleEvent).emitter.phase = s.emitter.phase ∧
    (s.settleEvent).emitter.period = s.emitter.period ∧
    (s.settleEvent).emitter.pendingPeriod = s.emitter.pendingPeriod ∧
    (s.settleEvent).emitter.activeFeed = s.emitter.activeFeed ∧
    (s.settleEvent).emitter.fallbackEnable = s.emitter.fallbackEnable ∧
    (s.settleEvent).emitter.fallbackDelay = s.emitter.fallbackDelay ∧
    (s.settleEvent).emitter.fallbackClip = s.emitter.fallbackClip ∧
    (s.settleEvent).emitter.fallbackMap = s.emitter.fallbackMap ∧ (s.settleEvent).clips.pages = s.clips.pages ∧
    (s.settleEvent).clips.intake = s.clips.intake ∧ (s.settleEvent).clips.record = s.clips.record ∧
    (s.settleEvent).clips.counts = s.clips.counts ∧ (s.settleEvent).clips.entries = s.clips.entries ∧
    (s.settleEvent).runner.descriptors = s.runner.descriptors ∧ (s.settleEvent).runner.store = s.runner.store ∧
    (s.settleEvent).slots.minLead = s.slots.minLead ∧ (s.settleEvent).slots.maxAhead = s.slots.maxAhead ∧
    (s.settleEvent).slots.queue = s.slots.queue ∧ (s.settleEvent).time.window = s.time.window ∧
    (s.settleEvent).time.holdoverLimit = s.time.holdoverLimit ∧ (s.settleEvent).engine.siteId = s.engine.siteId ∧
    (s.settleEvent).engine.groups = s.engine.groups ∧ (s.settleEvent).engine.intake = s.engine.intake ∧
    (s.settleEvent).engine.lastSource = s.engine.lastSource ∧ (s.settleEvent).engine.mask = s.engine.mask ∧
    (s.settleEvent).openingTaken = s.openingTaken ∧ (s.settleEvent).time.ticks = s.time.ticks ∧
    (s.settleEvent).time.seconds = s.time.seconds ∧ (s.settleEvent).time.markSeen = s.time.markSeen ∧
    (s.settleEvent).time.goodRun = s.time.goodRun ∧ (s.settleEvent).time.outlierRun = s.time.outlierRun ∧
    (s.settleEvent).time.missedRun = s.time.missedRun := by
  unfold State.settleEvent
  (repeat' split) <;> simp

@[simp] theorem State.passTo_keeps (k : Nat) :
    (s.passTo k).pending = s.pending ∧ (s.passTo k).pins = s.pins ∧ (s.passTo k).feeds = s.feeds ∧
    (s.passTo k).slots = s.slots ∧ (s.passTo k).delay = s.delay ∧ (s.passTo k).emitter = s.emitter ∧
    (s.passTo k).clips = s.clips ∧ (s.passTo k).channels = s.channels ∧ (s.passTo k).splice = s.splice ∧
    (s.passTo k).counters = s.counters ∧ (s.passTo k).alarms = s.alarms ∧ (s.passTo k).runner = s.runner ∧
    (s.passTo k).engine = s.engine ∧ (s.passTo k).out = s.out ∧ (s.passTo k).faultCount = s.faultCount ∧
    (s.passTo k).openingTaken = s.openingTaken ∧ (s.passTo k).time.seconds = s.time.seconds ∧
    (s.passTo k).time.state = s.time.state ∧ (s.passTo k).time.source = s.time.source ∧
    (s.passTo k).time.goodRun = s.time.goodRun ∧ (s.passTo k).time.outlierRun = s.time.outlierRun ∧
    (s.passTo k).time.missedRun = s.time.missedRun ∧ (s.passTo k).time.holdover = s.time.holdover ∧
    (s.passTo k).time.markSeen = s.time.markSeen ∧ (s.passTo k).time.window = s.time.window ∧
    (s.passTo k).time.holdoverLimit = s.time.holdoverLimit := by
  unfold State.passTo
  try dsimp only
  (repeat' split) <;> simp

@[simp] theorem State.missMark_keeps :
    (s.missMark).pending = s.pending ∧ (s.missMark).pins = s.pins ∧ (s.missMark).feeds = s.feeds ∧
    (s.missMark).delay = s.delay ∧ (s.missMark).clips = s.clips ∧ (s.missMark).splice = s.splice ∧
    (s.missMark).counters = s.counters ∧ (s.missMark).alarms = s.alarms ∧ (s.missMark).runner = s.runner ∧
    (s.missMark).out = s.out ∧ (s.missMark).faultCount = s.faultCount ∧ (s.missMark).openingTaken = s.openingTaken ∧
    (s.missMark).eventDue = s.eventDue ∧ (s.missMark).emitter.phase = s.emitter.phase ∧
    (s.missMark).emitter.period = s.emitter.period ∧ (s.missMark).emitter.pendingPeriod = s.emitter.pendingPeriod ∧
    (s.missMark).emitter.activeFeed = s.emitter.activeFeed ∧
    (s.missMark).emitter.fallbackEnable = s.emitter.fallbackEnable ∧
    (s.missMark).emitter.fallbackDelay = s.emitter.fallbackDelay ∧
    (s.missMark).emitter.fallbackClip = s.emitter.fallbackClip ∧
    (s.missMark).emitter.fallbackMap = s.emitter.fallbackMap ∧ (s.missMark).slots.minLead = s.slots.minLead ∧
    (s.missMark).slots.maxAhead = s.slots.maxAhead ∧ (s.missMark).slots.queue = s.slots.queue ∧
    (s.missMark).slots.counts = s.slots.counts ∧ (s.missMark).time.seconds = s.time.seconds ∧
    (s.missMark).time.source = s.time.source ∧ (s.missMark).time.outlierRun = s.time.outlierRun ∧
    (s.missMark).time.markSeen = s.time.markSeen ∧ (s.missMark).time.window = s.time.window ∧
    (s.missMark).time.holdoverLimit = s.time.holdoverLimit ∧ (s.missMark).time.ticks = s.time.ticks ∧
    (s.missMark).engine.siteId = s.engine.siteId ∧ (s.missMark).engine.groups = s.engine.groups ∧
    (s.missMark).engine.intake = s.engine.intake ∧ (s.missMark).engine.lastSource = s.engine.lastSource ∧
    (s.missMark).engine.mask = s.engine.mask ∧ (s.missMark).engine.reports = s.engine.reports ∧
    (s.missMark).engine.droppedFlag = s.engine.droppedFlag ∧ (s.missMark).engine.counts = s.engine.counts := by
  unfold State.missMark
  try dsimp only
  (repeat' split) <;> simp

@[simp] theorem State.missTest_keeps (k : Nat) :
    (s.missTest k).pending = s.pending ∧ (s.missTest k).pins = s.pins ∧ (s.missTest k).feeds = s.feeds ∧
    (s.missTest k).delay = s.delay ∧ (s.missTest k).clips = s.clips ∧ (s.missTest k).splice = s.splice ∧
    (s.missTest k).counters = s.counters ∧ (s.missTest k).alarms = s.alarms ∧ (s.missTest k).runner = s.runner ∧
    (s.missTest k).out = s.out ∧ (s.missTest k).faultCount = s.faultCount ∧
    (s.missTest k).openingTaken = s.openingTaken ∧ (s.missTest k).emitter.phase = s.emitter.phase ∧
    (s.missTest k).emitter.period = s.emitter.period ∧
    (s.missTest k).emitter.pendingPeriod = s.emitter.pendingPeriod ∧
    (s.missTest k).emitter.activeFeed = s.emitter.activeFeed ∧
    (s.missTest k).emitter.fallbackEnable = s.emitter.fallbackEnable ∧
    (s.missTest k).emitter.fallbackDelay = s.emitter.fallbackDelay ∧
    (s.missTest k).emitter.fallbackClip = s.emitter.fallbackClip ∧
    (s.missTest k).emitter.fallbackMap = s.emitter.fallbackMap ∧ (s.missTest k).slots.minLead = s.slots.minLead ∧
    (s.missTest k).slots.maxAhead = s.slots.maxAhead ∧ (s.missTest k).slots.queue = s.slots.queue ∧
    (s.missTest k).slots.counts = s.slots.counts ∧ (s.missTest k).time.seconds = s.time.seconds ∧
    (s.missTest k).time.source = s.time.source ∧ (s.missTest k).time.outlierRun = s.time.outlierRun ∧
    (s.missTest k).time.markSeen = s.time.markSeen ∧ (s.missTest k).time.window = s.time.window ∧
    (s.missTest k).time.holdoverLimit = s.time.holdoverLimit ∧ (s.missTest k).engine.siteId = s.engine.siteId ∧
    (s.missTest k).engine.groups = s.engine.groups ∧ (s.missTest k).engine.intake = s.engine.intake ∧
    (s.missTest k).engine.lastSource = s.engine.lastSource ∧ (s.missTest k).engine.mask = s.engine.mask ∧
    (s.missTest k).engine.reports = s.engine.reports ∧ (s.missTest k).engine.droppedFlag = s.engine.droppedFlag ∧
    (s.missTest k).engine.counts = s.engine.counts := by
  unfold State.missTest
  try dsimp only
  (repeat' split) <;> simp

@[simp] theorem State.openTest_keeps (k : Nat) :
    (s.openTest k).pending = s.pending ∧ (s.openTest k).pins = s.pins ∧ (s.openTest k).feeds = s.feeds ∧
    (s.openTest k).slots = s.slots ∧ (s.openTest k).delay = s.delay ∧ (s.openTest k).emitter = s.emitter ∧
    (s.openTest k).clips = s.clips ∧ (s.openTest k).channels = s.channels ∧ (s.openTest k).splice = s.splice ∧
    (s.openTest k).counters = s.counters ∧ (s.openTest k).alarms = s.alarms ∧ (s.openTest k).runner = s.runner ∧
    (s.openTest k).engine = s.engine ∧ (s.openTest k).out = s.out ∧ (s.openTest k).faultCount = s.faultCount ∧
    (s.openTest k).openingTaken = s.openingTaken ∧ (s.openTest k).time.seconds = s.time.seconds ∧
    (s.openTest k).time.state = s.time.state ∧ (s.openTest k).time.source = s.time.source ∧
    (s.openTest k).time.goodRun = s.time.goodRun ∧ (s.openTest k).time.outlierRun = s.time.outlierRun ∧
    (s.openTest k).time.missedRun = s.time.missedRun ∧ (s.openTest k).time.holdover = s.time.holdover ∧
    (s.openTest k).time.window = s.time.window ∧ (s.openTest k).time.holdoverLimit = s.time.holdoverLimit := by
  unfold State.openTest
  try dsimp only
  (repeat' split) <;> simp

@[simp] theorem State.passMultiples_keeps (k n : Nat) :
    (State.passMultiples k n s).pending = s.pending ∧ (State.passMultiples k n s).pins = s.pins ∧
    (State.passMultiples k n s).feeds = s.feeds ∧ (State.passMultiples k n s).delay = s.delay ∧
    (State.passMultiples k n s).splice = s.splice ∧ (State.passMultiples k n s).out = s.out ∧
    (State.passMultiples k n s).faultCount = s.faultCount ∧
    (State.passMultiples k n s).emitter.phase = s.emitter.phase ∧
    (State.passMultiples k n s).emitter.period = s.emitter.period ∧
    (State.passMultiples k n s).emitter.pendingPeriod = s.emitter.pendingPeriod ∧
    (State.passMultiples k n s).emitter.activeFeed = s.emitter.activeFeed ∧
    (State.passMultiples k n s).emitter.fallbackEnable = s.emitter.fallbackEnable ∧
    (State.passMultiples k n s).emitter.fallbackDelay = s.emitter.fallbackDelay ∧
    (State.passMultiples k n s).emitter.fallbackClip = s.emitter.fallbackClip ∧
    (State.passMultiples k n s).emitter.fallbackMap = s.emitter.fallbackMap ∧
    (State.passMultiples k n s).clips.pages = s.clips.pages ∧
    (State.passMultiples k n s).clips.intake = s.clips.intake ∧
    (State.passMultiples k n s).clips.record = s.clips.record ∧
    (State.passMultiples k n s).clips.counts = s.clips.counts ∧
    (State.passMultiples k n s).clips.entries = s.clips.entries ∧
    (State.passMultiples k n s).runner.descriptors = s.runner.descriptors ∧
    (State.passMultiples k n s).runner.store = s.runner.store ∧
    (State.passMultiples k n s).slots.minLead = s.slots.minLead ∧
    (State.passMultiples k n s).slots.maxAhead = s.slots.maxAhead ∧
    (State.passMultiples k n s).slots.queue = s.slots.queue ∧
    (State.passMultiples k n s).time.window = s.time.window ∧
    (State.passMultiples k n s).time.holdoverLimit = s.time.holdoverLimit ∧
    (State.passMultiples k n s).engine.siteId = s.engine.siteId ∧
    (State.passMultiples k n s).engine.groups = s.engine.groups ∧
    (State.passMultiples k n s).engine.intake = s.engine.intake ∧
    (State.passMultiples k n s).engine.lastSource = s.engine.lastSource ∧
    (State.passMultiples k n s).engine.mask = s.engine.mask ∧
    (State.passMultiples k n s).openingTaken = s.openingTaken ∧
    (State.passMultiples k n s).time.seconds = s.time.seconds ∧
    (State.passMultiples k n s).time.markSeen = s.time.markSeen ∧
    (State.passMultiples k n s).time.goodRun = s.time.goodRun ∧
    (State.passMultiples k n s).time.outlierRun = s.time.outlierRun ∧
    (State.passMultiples k n s).time.missedRun = s.time.missedRun := by
  induction n generalizing s with
  | zero => simp [State.passMultiples]
  | succ n ih =>
    unfold State.passMultiples
    split
    · simp [ih]
    · simp

@[simp] theorem State.countTo_keeps (k : Nat) :
    (s.countTo k).pending = s.pending ∧ (s.countTo k).pins = s.pins ∧ (s.countTo k).feeds = s.feeds ∧
    (s.countTo k).delay = s.delay ∧ (s.countTo k).splice = s.splice ∧ (s.countTo k).out = s.out ∧
    (s.countTo k).faultCount = s.faultCount ∧ (s.countTo k).emitter.phase = s.emitter.phase ∧
    (s.countTo k).emitter.period = s.emitter.period ∧ (s.countTo k).emitter.pendingPeriod = s.emitter.pendingPeriod ∧
    (s.countTo k).emitter.activeFeed = s.emitter.activeFeed ∧
    (s.countTo k).emitter.fallbackEnable = s.emitter.fallbackEnable ∧
    (s.countTo k).emitter.fallbackDelay = s.emitter.fallbackDelay ∧
    (s.countTo k).emitter.fallbackClip = s.emitter.fallbackClip ∧
    (s.countTo k).emitter.fallbackMap = s.emitter.fallbackMap ∧ (s.countTo k).clips.pages = s.clips.pages ∧
    (s.countTo k).clips.intake = s.clips.intake ∧ (s.countTo k).clips.record = s.clips.record ∧
    (s.countTo k).clips.counts = s.clips.counts ∧ (s.countTo k).clips.entries = s.clips.entries ∧
    (s.countTo k).runner.descriptors = s.runner.descriptors ∧ (s.countTo k).runner.store = s.runner.store ∧
    (s.countTo k).slots.minLead = s.slots.minLead ∧ (s.countTo k).slots.maxAhead = s.slots.maxAhead ∧
    (s.countTo k).slots.queue = s.slots.queue ∧ (s.countTo k).time.window = s.time.window ∧
    (s.countTo k).time.holdoverLimit = s.time.holdoverLimit ∧ (s.countTo k).engine.siteId = s.engine.siteId ∧
    (s.countTo k).engine.groups = s.engine.groups ∧ (s.countTo k).engine.intake = s.engine.intake ∧
    (s.countTo k).engine.lastSource = s.engine.lastSource ∧ (s.countTo k).engine.mask = s.engine.mask ∧
    (s.countTo k).openingTaken = s.openingTaken ∧ (s.countTo k).time.seconds = s.time.seconds ∧
    (s.countTo k).time.outlierRun = s.time.outlierRun := by
  unfold State.countTo
  (repeat' split) <;> simp

@[simp] theorem State.countToStamp_keeps (x : Stamp) :
    (s.countToStamp x).pending = s.pending ∧ (s.countToStamp x).pins = s.pins ∧ (s.countToStamp x).feeds = s.feeds ∧
    (s.countToStamp x).delay = s.delay ∧ (s.countToStamp x).splice = s.splice ∧ (s.countToStamp x).out = s.out ∧
    (s.countToStamp x).faultCount = s.faultCount ∧ (s.countToStamp x).emitter.phase = s.emitter.phase ∧
    (s.countToStamp x).emitter.period = s.emitter.period ∧
    (s.countToStamp x).emitter.pendingPeriod = s.emitter.pendingPeriod ∧
    (s.countToStamp x).emitter.activeFeed = s.emitter.activeFeed ∧
    (s.countToStamp x).emitter.fallbackEnable = s.emitter.fallbackEnable ∧
    (s.countToStamp x).emitter.fallbackDelay = s.emitter.fallbackDelay ∧
    (s.countToStamp x).emitter.fallbackClip = s.emitter.fallbackClip ∧
    (s.countToStamp x).emitter.fallbackMap = s.emitter.fallbackMap ∧ (s.countToStamp x).clips.pages = s.clips.pages ∧
    (s.countToStamp x).clips.intake = s.clips.intake ∧ (s.countToStamp x).clips.record = s.clips.record ∧
    (s.countToStamp x).clips.counts = s.clips.counts ∧ (s.countToStamp x).clips.entries = s.clips.entries ∧
    (s.countToStamp x).runner.descriptors = s.runner.descriptors ∧ (s.countToStamp x).runner.store = s.runner.store ∧
    (s.countToStamp x).slots.minLead = s.slots.minLead ∧ (s.countToStamp x).slots.maxAhead = s.slots.maxAhead ∧
    (s.countToStamp x).slots.queue = s.slots.queue ∧ (s.countToStamp x).time.window = s.time.window ∧
    (s.countToStamp x).time.holdoverLimit = s.time.holdoverLimit ∧
    (s.countToStamp x).engine.siteId = s.engine.siteId ∧ (s.countToStamp x).engine.groups = s.engine.groups ∧
    (s.countToStamp x).engine.intake = s.engine.intake ∧ (s.countToStamp x).engine.lastSource = s.engine.lastSource ∧
    (s.countToStamp x).engine.mask = s.engine.mask ∧ (s.countToStamp x).openingTaken = s.openingTaken ∧
    (s.countToStamp x).time.seconds = s.time.seconds ∧ (s.countToStamp x).time.outlierRun = s.time.outlierRun := by
  unfold State.countToStamp
  (repeat' split) <;> simp

@[simp] theorem State.countOut_keeps :
    (s.countOut).pending = s.pending ∧ (s.countOut).pins = s.pins ∧ (s.countOut).feeds = s.feeds ∧
    (s.countOut).delay = s.delay ∧ (s.countOut).splice = s.splice ∧ (s.countOut).out = s.out ∧
    (s.countOut).faultCount = s.faultCount ∧ (s.countOut).emitter.phase = s.emitter.phase ∧
    (s.countOut).emitter.period = s.emitter.period ∧ (s.countOut).emitter.pendingPeriod = s.emitter.pendingPeriod ∧
    (s.countOut).emitter.activeFeed = s.emitter.activeFeed ∧
    (s.countOut).emitter.fallbackEnable = s.emitter.fallbackEnable ∧
    (s.countOut).emitter.fallbackDelay = s.emitter.fallbackDelay ∧
    (s.countOut).emitter.fallbackClip = s.emitter.fallbackClip ∧
    (s.countOut).emitter.fallbackMap = s.emitter.fallbackMap ∧ (s.countOut).clips.pages = s.clips.pages ∧
    (s.countOut).clips.intake = s.clips.intake ∧ (s.countOut).clips.record = s.clips.record ∧
    (s.countOut).clips.counts = s.clips.counts ∧ (s.countOut).clips.entries = s.clips.entries ∧
    (s.countOut).runner.descriptors = s.runner.descriptors ∧ (s.countOut).runner.store = s.runner.store ∧
    (s.countOut).slots.minLead = s.slots.minLead ∧ (s.countOut).slots.maxAhead = s.slots.maxAhead ∧
    (s.countOut).slots.queue = s.slots.queue ∧ (s.countOut).time.window = s.time.window ∧
    (s.countOut).time.holdoverLimit = s.time.holdoverLimit ∧ (s.countOut).engine.siteId = s.engine.siteId ∧
    (s.countOut).engine.groups = s.engine.groups ∧ (s.countOut).engine.intake = s.engine.intake ∧
    (s.countOut).engine.lastSource = s.engine.lastSource ∧ (s.countOut).engine.mask = s.engine.mask ∧
    (s.countOut).openingTaken = s.openingTaken ∧ (s.countOut).time.seconds = s.time.seconds ∧
    (s.countOut).time.outlierRun = s.time.outlierRun := by
  unfold State.countOut
  (repeat' split) <;> simp

@[simp] theorem State.atHead_keeps :
    (s.atHead).pending = s.pending ∧ (s.atHead).pins = s.pins ∧ (s.atHead).feeds = s.feeds ∧
    (s.atHead).delay = s.delay ∧ (s.atHead).splice = s.splice ∧ (s.atHead).out = s.out ∧
    (s.atHead).faultCount = s.faultCount ∧ (s.atHead).emitter.phase = s.emitter.phase ∧
    (s.atHead).emitter.period = s.emitter.period ∧ (s.atHead).emitter.pendingPeriod = s.emitter.pendingPeriod ∧
    (s.atHead).emitter.activeFeed = s.emitter.activeFeed ∧
    (s.atHead).emitter.fallbackEnable = s.emitter.fallbackEnable ∧
    (s.atHead).emitter.fallbackDelay = s.emitter.fallbackDelay ∧
    (s.atHead).emitter.fallbackClip = s.emitter.fallbackClip ∧
    (s.atHead).emitter.fallbackMap = s.emitter.fallbackMap ∧ (s.atHead).clips.pages = s.clips.pages ∧
    (s.atHead).clips.intake = s.clips.intake ∧ (s.atHead).clips.record = s.clips.record ∧
    (s.atHead).clips.counts = s.clips.counts ∧ (s.atHead).clips.entries = s.clips.entries ∧
    (s.atHead).runner.descriptors = s.runner.descriptors ∧ (s.atHead).runner.store = s.runner.store ∧
    (s.atHead).slots.minLead = s.slots.minLead ∧ (s.atHead).slots.maxAhead = s.slots.maxAhead ∧
    (s.atHead).slots.queue = s.slots.queue ∧ (s.atHead).time.window = s.time.window ∧
    (s.atHead).time.holdoverLimit = s.time.holdoverLimit ∧ (s.atHead).engine.siteId = s.engine.siteId ∧
    (s.atHead).engine.groups = s.engine.groups ∧ (s.atHead).engine.intake = s.engine.intake ∧
    (s.atHead).engine.lastSource = s.engine.lastSource ∧ (s.atHead).engine.mask = s.engine.mask ∧
    (s.atHead).openingTaken = s.openingTaken ∧ (s.atHead).time.seconds = s.time.seconds ∧
    (s.atHead).time.outlierRun = s.time.outlierRun := by
  unfold State.atHead
  (repeat' split) <;> simp

@[simp] theorem State.countMillisecond_keeps :
    (s.countMillisecond).pending = s.pending ∧ (s.countMillisecond).pins = s.pins ∧
    (s.countMillisecond).feeds = s.feeds ∧ (s.countMillisecond).delay = s.delay ∧
    (s.countMillisecond).splice = s.splice ∧ (s.countMillisecond).out = s.out ∧
    (s.countMillisecond).faultCount = s.faultCount ∧ (s.countMillisecond).emitter.phase = s.emitter.phase ∧
    (s.countMillisecond).emitter.period = s.emitter.period ∧
    (s.countMillisecond).emitter.pendingPeriod = s.emitter.pendingPeriod ∧
    (s.countMillisecond).emitter.activeFeed = s.emitter.activeFeed ∧
    (s.countMillisecond).emitter.fallbackEnable = s.emitter.fallbackEnable ∧
    (s.countMillisecond).emitter.fallbackDelay = s.emitter.fallbackDelay ∧
    (s.countMillisecond).emitter.fallbackClip = s.emitter.fallbackClip ∧
    (s.countMillisecond).emitter.fallbackMap = s.emitter.fallbackMap ∧
    (s.countMillisecond).clips.pages = s.clips.pages ∧ (s.countMillisecond).clips.intake = s.clips.intake ∧
    (s.countMillisecond).clips.record = s.clips.record ∧ (s.countMillisecond).clips.counts = s.clips.counts ∧
    (s.countMillisecond).clips.entries = s.clips.entries ∧
    (s.countMillisecond).runner.descriptors = s.runner.descriptors ∧
    (s.countMillisecond).runner.store = s.runner.store ∧ (s.countMillisecond).slots.minLead = s.slots.minLead ∧
    (s.countMillisecond).slots.maxAhead = s.slots.maxAhead ∧ (s.countMillisecond).slots.queue = s.slots.queue ∧
    (s.countMillisecond).time.window = s.time.window ∧
    (s.countMillisecond).time.holdoverLimit = s.time.holdoverLimit ∧
    (s.countMillisecond).engine.siteId = s.engine.siteId ∧ (s.countMillisecond).engine.groups = s.engine.groups ∧
    (s.countMillisecond).engine.intake = s.engine.intake ∧
    (s.countMillisecond).engine.lastSource = s.engine.lastSource ∧ (s.countMillisecond).engine.mask = s.engine.mask ∧
    (s.countMillisecond).time.outlierRun = s.time.outlierRun := by
  unfold State.countMillisecond
  (repeat' split) <;> simp [SiteTime.wrapped]

@[simp] theorem State.goodMarkRule_keeps :
    (s.goodMarkRule).pending = s.pending ∧ (s.goodMarkRule).pins = s.pins ∧ (s.goodMarkRule).feeds = s.feeds ∧
    (s.goodMarkRule).delay = s.delay ∧ (s.goodMarkRule).clips = s.clips ∧ (s.goodMarkRule).splice = s.splice ∧
    (s.goodMarkRule).counters = s.counters ∧ (s.goodMarkRule).alarms = s.alarms ∧ (s.goodMarkRule).runner = s.runner ∧
    (s.goodMarkRule).out = s.out ∧ (s.goodMarkRule).faultCount = s.faultCount ∧
    (s.goodMarkRule).openingTaken = s.openingTaken ∧ (s.goodMarkRule).eventDue = s.eventDue ∧
    (s.goodMarkRule).emitter.phase = s.emitter.phase ∧ (s.goodMarkRule).emitter.period = s.emitter.period ∧
    (s.goodMarkRule).emitter.pendingPeriod = s.emitter.pendingPeriod ∧
    (s.goodMarkRule).emitter.activeFeed = s.emitter.activeFeed ∧
    (s.goodMarkRule).emitter.fallbackEnable = s.emitter.fallbackEnable ∧
    (s.goodMarkRule).emitter.fallbackDelay = s.emitter.fallbackDelay ∧
    (s.goodMarkRule).emitter.fallbackClip = s.emitter.fallbackClip ∧
    (s.goodMarkRule).emitter.fallbackMap = s.emitter.fallbackMap ∧ (s.goodMarkRule).slots.minLead = s.slots.minLead ∧
    (s.goodMarkRule).slots.maxAhead = s.slots.maxAhead ∧ (s.goodMarkRule).slots.queue = s.slots.queue ∧
    (s.goodMarkRule).slots.counts = s.slots.counts ∧ (s.goodMarkRule).time.seconds = s.time.seconds ∧
    (s.goodMarkRule).time.source = s.time.source ∧ (s.goodMarkRule).time.markSeen = s.time.markSeen ∧
    (s.goodMarkRule).time.window = s.time.window ∧ (s.goodMarkRule).time.holdoverLimit = s.time.holdoverLimit ∧
    (s.goodMarkRule).time.ticks = s.time.ticks ∧ (s.goodMarkRule).engine.siteId = s.engine.siteId ∧
    (s.goodMarkRule).engine.groups = s.engine.groups ∧ (s.goodMarkRule).engine.intake = s.engine.intake ∧
    (s.goodMarkRule).engine.lastSource = s.engine.lastSource ∧ (s.goodMarkRule).engine.mask = s.engine.mask ∧
    (s.goodMarkRule).engine.reports = s.engine.reports ∧ (s.goodMarkRule).engine.droppedFlag = s.engine.droppedFlag ∧
    (s.goodMarkRule).engine.counts = s.engine.counts := by
  unfold State.goodMarkRule
  try dsimp only
  (repeat' split) <;> simp

@[simp] theorem State.goodMark_keeps (w : Bool) :
    (s.goodMark w).pending = s.pending ∧ (s.goodMark w).pins = s.pins ∧ (s.goodMark w).feeds = s.feeds ∧
    (s.goodMark w).delay = s.delay ∧ (s.goodMark w).faultCount = s.faultCount ∧
    (s.goodMark w).emitter.fallbackEnable = s.emitter.fallbackEnable ∧
    (s.goodMark w).emitter.fallbackDelay = s.emitter.fallbackDelay ∧
    (s.goodMark w).emitter.fallbackClip = s.emitter.fallbackClip ∧
    (s.goodMark w).emitter.fallbackMap = s.emitter.fallbackMap ∧ (s.goodMark w).clips.pages = s.clips.pages ∧
    (s.goodMark w).clips.intake = s.clips.intake ∧ (s.goodMark w).clips.record = s.clips.record ∧
    (s.goodMark w).clips.counts = s.clips.counts ∧ (s.goodMark w).splice.services = s.splice.services ∧
    (s.goodMark w).splice.breakMap = s.splice.breakMap ∧ (s.goodMark w).splice.badCues = s.splice.badCues ∧
    (s.goodMark w).splice.intake = s.splice.intake ∧ (s.goodMark w).runner.descriptors = s.runner.descriptors ∧
    (s.goodMark w).runner.store = s.runner.store ∧ (s.goodMark w).slots.minLead = s.slots.minLead ∧
    (s.goodMark w).slots.maxAhead = s.slots.maxAhead ∧ (s.goodMark w).time.window = s.time.window ∧
    (s.goodMark w).time.holdoverLimit = s.time.holdoverLimit ∧ (s.goodMark w).engine.siteId = s.engine.siteId ∧
    (s.goodMark w).engine.groups = s.engine.groups ∧ (s.goodMark w).engine.intake = s.engine.intake ∧
    (s.goodMark w).engine.lastSource = s.engine.lastSource ∧ (s.goodMark w).engine.mask = s.engine.mask := by
  unfold State.goodMark
  dsimp only
  (repeat' split) <;> simp [SiteTime.corrected]

@[simp] theorem State.jumpToMark_keeps (v : Option Word) (w : Bool) :
    (s.jumpToMark v w).pending = s.pending ∧ (s.jumpToMark v w).pins = s.pins ∧ (s.jumpToMark v w).feeds = s.feeds ∧
    (s.jumpToMark v w).delay = s.delay ∧ (s.jumpToMark v w).faultCount = s.faultCount ∧
    (s.jumpToMark v w).emitter.fallbackEnable = s.emitter.fallbackEnable ∧
    (s.jumpToMark v w).emitter.fallbackDelay = s.emitter.fallbackDelay ∧
    (s.jumpToMark v w).emitter.fallbackClip = s.emitter.fallbackClip ∧
    (s.jumpToMark v w).emitter.fallbackMap = s.emitter.fallbackMap ∧ (s.jumpToMark v w).clips.pages = s.clips.pages ∧
    (s.jumpToMark v w).clips.intake = s.clips.intake ∧ (s.jumpToMark v w).clips.record = s.clips.record ∧
    (s.jumpToMark v w).clips.counts = s.clips.counts ∧ (s.jumpToMark v w).splice.services = s.splice.services ∧
    (s.jumpToMark v w).splice.breakMap = s.splice.breakMap ∧ (s.jumpToMark v w).splice.badCues = s.splice.badCues ∧
    (s.jumpToMark v w).splice.intake = s.splice.intake ∧
    (s.jumpToMark v w).runner.descriptors = s.runner.descriptors ∧ (s.jumpToMark v w).runner.store = s.runner.store ∧
    (s.jumpToMark v w).slots.minLead = s.slots.minLead ∧ (s.jumpToMark v w).slots.maxAhead = s.slots.maxAhead ∧
    (s.jumpToMark v w).time.window = s.time.window ∧ (s.jumpToMark v w).time.holdoverLimit = s.time.holdoverLimit ∧
    (s.jumpToMark v w).engine.siteId = s.engine.siteId ∧ (s.jumpToMark v w).engine.groups = s.engine.groups ∧
    (s.jumpToMark v w).engine.intake = s.engine.intake ∧ (s.jumpToMark v w).engine.lastSource = s.engine.lastSource ∧
    (s.jumpToMark v w).engine.mask = s.engine.mask := by
  simp [State.jumpToMark, SiteTime.jumped]

@[simp] theorem State.stepToMark_keeps (v : Option Word) (w : Bool) :
    (s.stepToMark v w).pending = s.pending ∧ (s.stepToMark v w).pins = s.pins ∧ (s.stepToMark v w).feeds = s.feeds ∧
    (s.stepToMark v w).delay = s.delay ∧ (s.stepToMark v w).faultCount = s.faultCount ∧
    (s.stepToMark v w).emitter.fallbackEnable = s.emitter.fallbackEnable ∧
    (s.stepToMark v w).emitter.fallbackDelay = s.emitter.fallbackDelay ∧
    (s.stepToMark v w).emitter.fallbackClip = s.emitter.fallbackClip ∧
    (s.stepToMark v w).emitter.fallbackMap = s.emitter.fallbackMap ∧ (s.stepToMark v w).clips.pages = s.clips.pages ∧
    (s.stepToMark v w).clips.intake = s.clips.intake ∧ (s.stepToMark v w).clips.record = s.clips.record ∧
    (s.stepToMark v w).clips.counts = s.clips.counts ∧ (s.stepToMark v w).splice.services = s.splice.services ∧
    (s.stepToMark v w).splice.breakMap = s.splice.breakMap ∧ (s.stepToMark v w).splice.badCues = s.splice.badCues ∧
    (s.stepToMark v w).splice.intake = s.splice.intake ∧
    (s.stepToMark v w).runner.descriptors = s.runner.descriptors ∧ (s.stepToMark v w).runner.store = s.runner.store ∧
    (s.stepToMark v w).slots.minLead = s.slots.minLead ∧ (s.stepToMark v w).slots.maxAhead = s.slots.maxAhead ∧
    (s.stepToMark v w).time.window = s.time.window ∧ (s.stepToMark v w).time.holdoverLimit = s.time.holdoverLimit ∧
    (s.stepToMark v w).engine.siteId = s.engine.siteId ∧ (s.stepToMark v w).engine.groups = s.engine.groups ∧
    (s.stepToMark v w).engine.intake = s.engine.intake ∧ (s.stepToMark v w).engine.lastSource = s.engine.lastSource ∧
    (s.stepToMark v w).engine.mask = s.engine.mask := by
  unfold State.stepToMark
  try dsimp only
  (repeat' split) <;> simp

@[simp] theorem State.seeMark_keeps :
    (s.seeMark).pending = s.pending ∧ (s.seeMark).pins = s.pins ∧ (s.seeMark).portA = s.portA ∧
    (s.seeMark).portB = s.portB ∧ (s.seeMark).feeds = s.feeds ∧ (s.seeMark).slots = s.slots ∧
    (s.seeMark).delay = s.delay ∧ (s.seeMark).emitter = s.emitter ∧ (s.seeMark).clips = s.clips ∧
    (s.seeMark).channels = s.channels ∧ (s.seeMark).splice = s.splice ∧ (s.seeMark).counters = s.counters ∧
    (s.seeMark).alarms = s.alarms ∧ (s.seeMark).runner = s.runner ∧ (s.seeMark).engine = s.engine ∧
    (s.seeMark).out = s.out ∧ (s.seeMark).faultCount = s.faultCount ∧ (s.seeMark).openingTaken = s.openingTaken ∧
    (s.seeMark).eventDue = s.eventDue ∧ (s.seeMark).time.seconds = s.time.seconds ∧
    (s.seeMark).time.state = s.time.state ∧ (s.seeMark).time.source = s.time.source ∧
    (s.seeMark).time.goodRun = s.time.goodRun ∧ (s.seeMark).time.outlierRun = s.time.outlierRun ∧
    (s.seeMark).time.missedRun = s.time.missedRun ∧ (s.seeMark).time.holdover = s.time.holdover ∧
    (s.seeMark).time.window = s.time.window ∧ (s.seeMark).time.holdoverLimit = s.time.holdoverLimit ∧
    (s.seeMark).time.ticks = s.time.ticks := by
  unfold State.seeMark
  try dsimp only
  (repeat' split) <;> simp

@[simp] theorem State.outlier_keeps (v : Option Word) (w : Bool) :
    (s.outlier v w).pending = s.pending ∧ (s.outlier v w).pins = s.pins ∧ (s.outlier v w).feeds = s.feeds ∧
    (s.outlier v w).delay = s.delay ∧ (s.outlier v w).faultCount = s.faultCount ∧
    (s.outlier v w).emitter.fallbackEnable = s.emitter.fallbackEnable ∧
    (s.outlier v w).emitter.fallbackDelay = s.emitter.fallbackDelay ∧
    (s.outlier v w).emitter.fallbackClip = s.emitter.fallbackClip ∧
    (s.outlier v w).emitter.fallbackMap = s.emitter.fallbackMap ∧ (s.outlier v w).clips.pages = s.clips.pages ∧
    (s.outlier v w).clips.intake = s.clips.intake ∧ (s.outlier v w).clips.record = s.clips.record ∧
    (s.outlier v w).clips.counts = s.clips.counts ∧ (s.outlier v w).splice.services = s.splice.services ∧
    (s.outlier v w).splice.breakMap = s.splice.breakMap ∧ (s.outlier v w).splice.badCues = s.splice.badCues ∧
    (s.outlier v w).splice.intake = s.splice.intake ∧ (s.outlier v w).runner.descriptors = s.runner.descriptors ∧
    (s.outlier v w).runner.store = s.runner.store ∧ (s.outlier v w).slots.minLead = s.slots.minLead ∧
    (s.outlier v w).slots.maxAhead = s.slots.maxAhead ∧ (s.outlier v w).time.window = s.time.window ∧
    (s.outlier v w).time.holdoverLimit = s.time.holdoverLimit ∧ (s.outlier v w).engine.siteId = s.engine.siteId ∧
    (s.outlier v w).engine.groups = s.engine.groups ∧ (s.outlier v w).engine.intake = s.engine.intake ∧
    (s.outlier v w).engine.lastSource = s.engine.lastSource ∧ (s.outlier v w).engine.mask = s.engine.mask := by
  unfold State.outlier
  try dsimp only
  (repeat' split) <;> simp

@[simp] theorem State.judgeMark_keeps (v : Option Word) (w : Bool) :
    (s.judgeMark v w).pending = s.pending ∧ (s.judgeMark v w).pins = s.pins ∧ (s.judgeMark v w).feeds = s.feeds ∧
    (s.judgeMark v w).delay = s.delay ∧ (s.judgeMark v w).faultCount = s.faultCount ∧
    (s.judgeMark v w).emitter.fallbackEnable = s.emitter.fallbackEnable ∧
    (s.judgeMark v w).emitter.fallbackDelay = s.emitter.fallbackDelay ∧
    (s.judgeMark v w).emitter.fallbackClip = s.emitter.fallbackClip ∧
    (s.judgeMark v w).emitter.fallbackMap = s.emitter.fallbackMap ∧ (s.judgeMark v w).clips.pages = s.clips.pages ∧
    (s.judgeMark v w).clips.intake = s.clips.intake ∧ (s.judgeMark v w).clips.record = s.clips.record ∧
    (s.judgeMark v w).clips.counts = s.clips.counts ∧ (s.judgeMark v w).splice.services = s.splice.services ∧
    (s.judgeMark v w).splice.breakMap = s.splice.breakMap ∧ (s.judgeMark v w).splice.badCues = s.splice.badCues ∧
    (s.judgeMark v w).splice.intake = s.splice.intake ∧ (s.judgeMark v w).runner.descriptors = s.runner.descriptors ∧
    (s.judgeMark v w).runner.store = s.runner.store ∧ (s.judgeMark v w).slots.minLead = s.slots.minLead ∧
    (s.judgeMark v w).slots.maxAhead = s.slots.maxAhead ∧ (s.judgeMark v w).time.window = s.time.window ∧
    (s.judgeMark v w).time.holdoverLimit = s.time.holdoverLimit ∧ (s.judgeMark v w).engine.siteId = s.engine.siteId ∧
    (s.judgeMark v w).engine.groups = s.engine.groups ∧ (s.judgeMark v w).engine.intake = s.engine.intake ∧
    (s.judgeMark v w).engine.lastSource = s.engine.lastSource ∧ (s.judgeMark v w).engine.mask = s.engine.mask := by
  unfold State.judgeMark
  try dsimp only
  (repeat' split) <;> simp

@[simp] theorem State.loseReference_keeps :
    (s.loseReference).pending = s.pending ∧ (s.loseReference).pins = s.pins ∧ (s.loseReference).feeds = s.feeds ∧
    (s.loseReference).delay = s.delay ∧ (s.loseReference).clips = s.clips ∧ (s.loseReference).splice = s.splice ∧
    (s.loseReference).counters = s.counters ∧ (s.loseReference).alarms = s.alarms ∧
    (s.loseReference).runner = s.runner ∧ (s.loseReference).out = s.out ∧
    (s.loseReference).faultCount = s.faultCount ∧ (s.loseReference).openingTaken = s.openingTaken ∧
    (s.loseReference).eventDue = s.eventDue ∧ (s.loseReference).emitter.phase = s.emitter.phase ∧
    (s.loseReference).emitter.period = s.emitter.period ∧
    (s.loseReference).emitter.pendingPeriod = s.emitter.pendingPeriod ∧
    (s.loseReference).emitter.activeFeed = s.emitter.activeFeed ∧
    (s.loseReference).emitter.fallbackEnable = s.emitter.fallbackEnable ∧
    (s.loseReference).emitter.fallbackDelay = s.emitter.fallbackDelay ∧
    (s.loseReference).emitter.fallbackClip = s.emitter.fallbackClip ∧
    (s.loseReference).emitter.fallbackMap = s.emitter.fallbackMap ∧
    (s.loseReference).slots.minLead = s.slots.minLead ∧ (s.loseReference).slots.maxAhead = s.slots.maxAhead ∧
    (s.loseReference).slots.queue = s.slots.queue ∧ (s.loseReference).slots.counts = s.slots.counts ∧
    (s.loseReference).time.seconds = s.time.seconds ∧ (s.loseReference).time.goodRun = s.time.goodRun ∧
    (s.loseReference).time.outlierRun = s.time.outlierRun ∧ (s.loseReference).time.missedRun = s.time.missedRun ∧
    (s.loseReference).time.markSeen = s.time.markSeen ∧ (s.loseReference).time.window = s.time.window ∧
    (s.loseReference).time.holdoverLimit = s.time.holdoverLimit ∧ (s.loseReference).time.ticks = s.time.ticks ∧
    (s.loseReference).engine.siteId = s.engine.siteId ∧ (s.loseReference).engine.groups = s.engine.groups ∧
    (s.loseReference).engine.intake = s.engine.intake ∧ (s.loseReference).engine.lastSource = s.engine.lastSource ∧
    (s.loseReference).engine.mask = s.engine.mask ∧ (s.loseReference).engine.reports = s.engine.reports ∧
    (s.loseReference).engine.droppedFlag = s.engine.droppedFlag ∧
    (s.loseReference).engine.counts = s.engine.counts := by
  unfold State.loseReference
  try dsimp only
  (repeat' split) <;> simp

/-! ### resets -/

@[simp] theorem State.resetSchedule_keeps (n : Fin 8) :
    (s.resetSchedule n).pending = s.pending ∧ (s.resetSchedule n).pins = s.pins ∧ (s.resetSchedule n).time = s.time ∧
    (s.resetSchedule n).portA = s.portA ∧ (s.resetSchedule n).portB = s.portB ∧ (s.resetSchedule n).feeds = s.feeds ∧
    (s.resetSchedule n).slots = s.slots ∧ (s.resetSchedule n).delay = s.delay ∧
    (s.resetSchedule n).emitter = s.emitter ∧ (s.resetSchedule n).channels = s.channels ∧
    (s.resetSchedule n).counters = s.counters ∧ (s.resetSchedule n).alarms = s.alarms ∧
    (s.resetSchedule n).runner = s.runner ∧ (s.resetSchedule n).out = s.out ∧
    (s.resetSchedule n).faultCount = s.faultCount ∧ (s.resetSchedule n).openingTaken = s.openingTaken ∧
    (s.resetSchedule n).eventDue = s.eventDue ∧ (s.resetSchedule n).clips.pages = s.clips.pages ∧
    (s.resetSchedule n).clips.intake = s.clips.intake ∧ (s.resetSchedule n).clips.reads = s.clips.reads ∧
    (s.resetSchedule n).clips.record = s.clips.record ∧ (s.resetSchedule n).clips.counts = s.clips.counts ∧
    (s.resetSchedule n).splice.services = s.splice.services ∧
    (s.resetSchedule n).splice.breakMap = s.splice.breakMap ∧ (s.resetSchedule n).splice.badCues = s.splice.badCues ∧
    (s.resetSchedule n).splice.intake = s.splice.intake ∧
    (s.resetSchedule n).splice.lastNoticed = s.splice.lastNoticed ∧
    (s.resetSchedule n).engine.siteId = s.engine.siteId ∧ (s.resetSchedule n).engine.groups = s.engine.groups ∧
    (s.resetSchedule n).engine.intake = s.engine.intake ∧
    (s.resetSchedule n).engine.lastSource = s.engine.lastSource ∧ (s.resetSchedule n).engine.mask = s.engine.mask ∧
    (s.resetSchedule n).engine.reports = s.engine.reports ∧
    (s.resetSchedule n).engine.droppedFlag = s.engine.droppedFlag ∧
    (s.resetSchedule n).engine.counts = s.engine.counts := by
  unfold State.resetSchedule
  refine ⟨foldl_keeps (·.pending) _ ?_ _ _, foldl_keeps (·.pins) _ ?_ _ _, foldl_keeps (·.time) _ ?_ _ _,
    foldl_keeps (·.portA) _ ?_ _ _, foldl_keeps (·.portB) _ ?_ _ _, foldl_keeps (·.feeds) _ ?_ _ _,
    foldl_keeps (·.slots) _ ?_ _ _, foldl_keeps (·.delay) _ ?_ _ _, foldl_keeps (·.emitter) _ ?_ _ _,
    foldl_keeps (·.channels) _ ?_ _ _, foldl_keeps (·.counters) _ ?_ _ _, foldl_keeps (·.alarms) _ ?_ _ _,
    foldl_keeps (·.runner) _ ?_ _ _, foldl_keeps (·.out) _ ?_ _ _, foldl_keeps (·.faultCount) _ ?_ _ _,
    foldl_keeps (·.openingTaken) _ ?_ _ _, foldl_keeps (·.eventDue) _ ?_ _ _, foldl_keeps (·.clips.pages) _ ?_ _ _,
    foldl_keeps (·.clips.intake) _ ?_ _ _, foldl_keeps (·.clips.reads) _ ?_ _ _,
    foldl_keeps (·.clips.record) _ ?_ _ _, foldl_keeps (·.clips.counts) _ ?_ _ _,
    foldl_keeps (·.splice.services) _ ?_ _ _, foldl_keeps (·.splice.breakMap) _ ?_ _ _,
    foldl_keeps (·.splice.badCues) _ ?_ _ _, foldl_keeps (·.splice.intake) _ ?_ _ _,
    foldl_keeps (·.splice.lastNoticed) _ ?_ _ _, foldl_keeps (·.engine.siteId) _ ?_ _ _,
    foldl_keeps (·.engine.groups) _ ?_ _ _, foldl_keeps (·.engine.intake) _ ?_ _ _,
    foldl_keeps (·.engine.lastSource) _ ?_ _ _, foldl_keeps (·.engine.mask) _ ?_ _ _,
    foldl_keeps (·.engine.reports) _ ?_ _ _, foldl_keeps (·.engine.droppedFlag) _ ?_ _ _,
    foldl_keeps (·.engine.counts) _ ?_ _ _⟩ <;>
    · intro b a
      first | (simp; done) | ((try dsimp only); (repeat' split) <;> simp)

@[simp] theorem State.schedulesReset_keeps (l : List (Fin 8)) :
    (List.foldl State.resetSchedule s l).pending = s.pending ∧ (List.foldl State.resetSchedule s l).pins = s.pins ∧
    (List.foldl State.resetSchedule s l).time = s.time ∧ (List.foldl State.resetSchedule s l).portA = s.portA ∧
    (List.foldl State.resetSchedule s l).portB = s.portB ∧ (List.foldl State.resetSchedule s l).feeds = s.feeds ∧
    (List.foldl State.resetSchedule s l).slots = s.slots ∧ (List.foldl State.resetSchedule s l).delay = s.delay ∧
    (List.foldl State.resetSchedule s l).emitter = s.emitter ∧
    (List.foldl State.resetSchedule s l).channels = s.channels ∧
    (List.foldl State.resetSchedule s l).counters = s.counters ∧
    (List.foldl State.resetSchedule s l).alarms = s.alarms ∧ (List.foldl State.resetSchedule s l).runner = s.runner ∧
    (List.foldl State.resetSchedule s l).out = s.out ∧
    (List.foldl State.resetSchedule s l).faultCount = s.faultCount ∧
    (List.foldl State.resetSchedule s l).openingTaken = s.openingTaken ∧
    (List.foldl State.resetSchedule s l).eventDue = s.eventDue ∧
    (List.foldl State.resetSchedule s l).clips.pages = s.clips.pages ∧
    (List.foldl State.resetSchedule s l).clips.intake = s.clips.intake ∧
    (List.foldl State.resetSchedule s l).clips.reads = s.clips.reads ∧
    (List.foldl State.resetSchedule s l).clips.record = s.clips.record ∧
    (List.foldl State.resetSchedule s l).clips.counts = s.clips.counts ∧
    (List.foldl State.resetSchedule s l).splice.services = s.splice.services ∧
    (List.foldl State.resetSchedule s l).splice.breakMap = s.splice.breakMap ∧
    (List.foldl State.resetSchedule s l).splice.badCues = s.splice.badCues ∧
    (List.foldl State.resetSchedule s l).splice.intake = s.splice.intake ∧
    (List.foldl State.resetSchedule s l).splice.lastNoticed = s.splice.lastNoticed ∧
    (List.foldl State.resetSchedule s l).engine.siteId = s.engine.siteId ∧
    (List.foldl State.resetSchedule s l).engine.groups = s.engine.groups ∧
    (List.foldl State.resetSchedule s l).engine.intake = s.engine.intake ∧
    (List.foldl State.resetSchedule s l).engine.lastSource = s.engine.lastSource ∧
    (List.foldl State.resetSchedule s l).engine.mask = s.engine.mask ∧
    (List.foldl State.resetSchedule s l).engine.reports = s.engine.reports ∧
    (List.foldl State.resetSchedule s l).engine.droppedFlag = s.engine.droppedFlag ∧
    (List.foldl State.resetSchedule s l).engine.counts = s.engine.counts := by
  refine ⟨foldl_keeps (·.pending) _ ?_ _ _, foldl_keeps (·.pins) _ ?_ _ _, foldl_keeps (·.time) _ ?_ _ _,
    foldl_keeps (·.portA) _ ?_ _ _, foldl_keeps (·.portB) _ ?_ _ _, foldl_keeps (·.feeds) _ ?_ _ _,
    foldl_keeps (·.slots) _ ?_ _ _, foldl_keeps (·.delay) _ ?_ _ _, foldl_keeps (·.emitter) _ ?_ _ _,
    foldl_keeps (·.channels) _ ?_ _ _, foldl_keeps (·.counters) _ ?_ _ _, foldl_keeps (·.alarms) _ ?_ _ _,
    foldl_keeps (·.runner) _ ?_ _ _, foldl_keeps (·.out) _ ?_ _ _, foldl_keeps (·.faultCount) _ ?_ _ _,
    foldl_keeps (·.openingTaken) _ ?_ _ _, foldl_keeps (·.eventDue) _ ?_ _ _, foldl_keeps (·.clips.pages) _ ?_ _ _,
    foldl_keeps (·.clips.intake) _ ?_ _ _, foldl_keeps (·.clips.reads) _ ?_ _ _,
    foldl_keeps (·.clips.record) _ ?_ _ _, foldl_keeps (·.clips.counts) _ ?_ _ _,
    foldl_keeps (·.splice.services) _ ?_ _ _, foldl_keeps (·.splice.breakMap) _ ?_ _ _,
    foldl_keeps (·.splice.badCues) _ ?_ _ _, foldl_keeps (·.splice.intake) _ ?_ _ _,
    foldl_keeps (·.splice.lastNoticed) _ ?_ _ _, foldl_keeps (·.engine.siteId) _ ?_ _ _,
    foldl_keeps (·.engine.groups) _ ?_ _ _, foldl_keeps (·.engine.intake) _ ?_ _ _,
    foldl_keeps (·.engine.lastSource) _ ?_ _ _, foldl_keeps (·.engine.mask) _ ?_ _ _,
    foldl_keeps (·.engine.reports) _ ?_ _ _, foldl_keeps (·.engine.droppedFlag) _ ?_ _ _,
    foldl_keeps (·.engine.counts) _ ?_ _ _⟩ <;>
    · intro b a
      first | (simp; done) | ((try dsimp only); (repeat' split) <;> simp)

@[simp] theorem State.resetEmitter_keeps :
    (s.resetEmitter).pending = s.pending ∧ (s.resetEmitter).pins = s.pins ∧ (s.resetEmitter).time = s.time ∧
    (s.resetEmitter).portA = s.portA ∧ (s.resetEmitter).portB = s.portB ∧ (s.resetEmitter).feeds = s.feeds ∧
    (s.resetEmitter).slots = s.slots ∧ (s.resetEmitter).delay = s.delay ∧ (s.resetEmitter).clips = s.clips ∧
    (s.resetEmitter).channels = s.channels ∧ (s.resetEmitter).splice = s.splice ∧
    (s.resetEmitter).counters = s.counters ∧ (s.resetEmitter).alarms = s.alarms ∧ (s.resetEmitter).runner = s.runner ∧
    (s.resetEmitter).engine = s.engine ∧ (s.resetEmitter).out = s.out ∧ (s.resetEmitter).faultCount = s.faultCount ∧
    (s.resetEmitter).openingTaken = s.openingTaken ∧ (s.resetEmitter).eventDue = s.eventDue ∧
    (s.resetEmitter).emitter.reasons = s.emitter.reasons ∧ (s.resetEmitter).emitter.phase = s.emitter.phase ∧
    (s.resetEmitter).emitter.period = s.emitter.period ∧
    (s.resetEmitter).emitter.pendingPeriod = s.emitter.pendingPeriod ∧
    (s.resetEmitter).emitter.activeFeed = s.emitter.activeFeed ∧
    (s.resetEmitter).emitter.fallbackEnable = s.emitter.fallbackEnable ∧
    (s.resetEmitter).emitter.fallbackDelay = s.emitter.fallbackDelay ∧
    (s.resetEmitter).emitter.fallbackClip = s.emitter.fallbackClip ∧
    (s.resetEmitter).emitter.fallbackMap = s.emitter.fallbackMap := by
  unfold State.resetEmitter
  try dsimp only
  (repeat' split) <;> simp

@[simp] theorem State.trafficReset_keeps :
    (s.trafficReset).pending = s.pending ∧ (s.trafficReset).pins = s.pins ∧ (s.trafficReset).time = s.time ∧
    (s.trafficReset).feeds = s.feeds ∧ (s.trafficReset).delay = s.delay ∧ (s.trafficReset).counters = s.counters ∧
    (s.trafficReset).alarms = s.alarms ∧ (s.trafficReset).out = s.out ∧ (s.trafficReset).faultCount = s.faultCount ∧
    (s.trafficReset).openingTaken = s.openingTaken ∧ (s.trafficReset).eventDue = s.eventDue ∧
    (s.trafficReset).emitter.reasons = s.emitter.reasons ∧ (s.trafficReset).emitter.phase = s.emitter.phase ∧
    (s.trafficReset).emitter.period = s.emitter.period ∧
    (s.trafficReset).emitter.pendingPeriod = s.emitter.pendingPeriod ∧
    (s.trafficReset).emitter.activeFeed = s.emitter.activeFeed ∧
    (s.trafficReset).emitter.fallbackEnable = s.emitter.fallbackEnable ∧
    (s.trafficReset).emitter.fallbackDelay = s.emitter.fallbackDelay ∧
    (s.trafficReset).emitter.fallbackClip = s.emitter.fallbackClip ∧
    (s.trafficReset).emitter.fallbackMap = s.emitter.fallbackMap ∧ (s.trafficReset).clips.pages = s.clips.pages ∧
    (s.trafficReset).clips.intake = s.clips.intake ∧ (s.trafficReset).clips.reads = s.clips.reads ∧
    (s.trafficReset).clips.record = s.clips.record ∧ (s.trafficReset).clips.counts = s.clips.counts ∧
    (s.trafficReset).splice.services = s.splice.services ∧ (s.trafficReset).splice.breakMap = s.splice.breakMap ∧
    (s.trafficReset).splice.badCues = s.splice.badCues ∧ (s.trafficReset).splice.intake = s.splice.intake ∧
    (s.trafficReset).splice.lastNoticed = s.splice.lastNoticed ∧ (s.trafficReset).slots.counts = s.slots.counts ∧
    (s.trafficReset).slots.minLead = s.slots.minLead ∧ (s.trafficReset).slots.maxAhead = s.slots.maxAhead ∧
    (s.trafficReset).runner.descriptors = s.runner.descriptors ∧ (s.trafficReset).runner.store = s.runner.store ∧
    (s.trafficReset).runner.fault = s.runner.fault ∧ (s.trafficReset).engine.groups = s.engine.groups ∧
    (s.trafficReset).engine.intake = s.engine.intake ∧ (s.trafficReset).engine.lastSource = s.engine.lastSource ∧
    (s.trafficReset).engine.mask = s.engine.mask ∧ (s.trafficReset).engine.reports = s.engine.reports ∧
    (s.trafficReset).engine.droppedFlag = s.engine.droppedFlag ∧
    (s.trafficReset).engine.counts = s.engine.counts := by
  unfold State.trafficReset
  simp [SlotTable.trafficReset, ListRunner.trafficReset]

@[simp] theorem State.fullReset_keeps :
    (s.fullReset).pending = s.pending ∧ (s.fullReset).pins = s.pins ∧ (s.fullReset).delay = s.delay ∧
    (s.fullReset).out = s.out ∧ (s.fullReset).faultCount = s.faultCount ∧ (s.fullReset).clips.pages = s.clips.pages ∧
    (s.fullReset).clips.intake = s.clips.intake ∧ (s.fullReset).splice.intake = s.splice.intake := by
  simp [State.fullReset, ClipStore.fullReset]

/-! ### WRITE of Site Settings -/

@[simp] theorem State.enableWritten_keeps (b : Bool) :
    (s.enableWritten b).pending = s.pending ∧ (s.enableWritten b).pins = s.pins ∧ (s.enableWritten b).time = s.time ∧
    (s.enableWritten b).portA = s.portA ∧ (s.enableWritten b).portB = s.portB ∧ (s.enableWritten b).feeds = s.feeds ∧
    (s.enableWritten b).slots = s.slots ∧ (s.enableWritten b).delay = s.delay ∧ (s.enableWritten b).clips = s.clips ∧
    (s.enableWritten b).splice = s.splice ∧ (s.enableWritten b).counters = s.counters ∧
    (s.enableWritten b).alarms = s.alarms ∧ (s.enableWritten b).runner = s.runner ∧
    (s.enableWritten b).engine = s.engine ∧ (s.enableWritten b).out = s.out ∧
    (s.enableWritten b).faultCount = s.faultCount ∧ (s.enableWritten b).openingTaken = s.openingTaken ∧
    (s.enableWritten b).eventDue = s.eventDue ∧ (s.enableWritten b).emitter.reasons = s.emitter.reasons ∧
    (s.enableWritten b).emitter.phase = s.emitter.phase ∧ (s.enableWritten b).emitter.period = s.emitter.period ∧
    (s.enableWritten b).emitter.pendingPeriod = s.emitter.pendingPeriod ∧
    (s.enableWritten b).emitter.current = s.emitter.current ∧
    (s.enableWritten b).emitter.activeFeed = s.emitter.activeFeed ∧
    (s.enableWritten b).emitter.counts = s.emitter.counts ∧
    (s.enableWritten b).emitter.fallbackEnable = s.emitter.fallbackEnable ∧
    (s.enableWritten b).emitter.fallbackDelay = s.emitter.fallbackDelay ∧
    (s.enableWritten b).emitter.fallbackClip = s.emitter.fallbackClip ∧
    (s.enableWritten b).emitter.fallbackMap = s.emitter.fallbackMap := by
  unfold State.enableWritten
  try dsimp only
  (repeat' split) <;> simp

@[simp] theorem State.unmute_keeps :
    (s.unmute).pending = s.pending ∧ (s.unmute).pins = s.pins ∧ (s.unmute).time = s.time ∧
    (s.unmute).feeds = s.feeds ∧ (s.unmute).delay = s.delay ∧ (s.unmute).alarms = s.alarms ∧
    (s.unmute).faultCount = s.faultCount ∧ (s.unmute).openingTaken = s.openingTaken ∧
    (s.unmute).eventDue = s.eventDue ∧ (s.unmute).emitter.fallbackEnable = s.emitter.fallbackEnable ∧
    (s.unmute).emitter.fallbackDelay = s.emitter.fallbackDelay ∧
    (s.unmute).emitter.fallbackClip = s.emitter.fallbackClip ∧
    (s.unmute).emitter.fallbackMap = s.emitter.fallbackMap ∧ (s.unmute).clips.pages = s.clips.pages ∧
    (s.unmute).clips.intake = s.clips.intake ∧ (s.unmute).clips.record = s.clips.record ∧
    (s.unmute).clips.counts = s.clips.counts ∧ (s.unmute).splice.services = s.splice.services ∧
    (s.unmute).splice.breakMap = s.splice.breakMap ∧ (s.unmute).splice.badCues = s.splice.badCues ∧
    (s.unmute).splice.intake = s.splice.intake ∧ (s.unmute).runner.descriptors = s.runner.descriptors ∧
    (s.unmute).runner.store = s.runner.store ∧ (s.unmute).slots.minLead = s.slots.minLead ∧
    (s.unmute).slots.maxAhead = s.slots.maxAhead ∧ (s.unmute).engine.siteId = s.engine.siteId ∧
    (s.unmute).engine.groups = s.engine.groups ∧ (s.unmute).engine.intake = s.engine.intake ∧
    (s.unmute).engine.lastSource = s.engine.lastSource ∧ (s.unmute).engine.mask = s.engine.mask ∧
    (s.unmute).engine.reports = s.engine.reports ∧ (s.unmute).engine.droppedFlag = s.engine.droppedFlag ∧
    (s.unmute).engine.counts = s.engine.counts := by
  unfold State.unmute
  try dsimp only
  (repeat' split) <;> simp

end Sys2Proof.Machine
end

