-- ==== Sys2Proof/Laws/Commands.lean ====
section
/-! SUPPORT. Laws/Commands.lean: what every management command leaves alone, and what a reply changes. -/

namespace Sys2Proof.Machine

variable (s : State)

/-! ### Replies -/

/-- R174: queueing the parts of a reply changes the engine only: the queue, the flag and the counts. -/
@[simp] theorem State.queueParts_keeps (src : CommandSource) (tag : Half) (code : Byte) (st : Status) (n : Nat)
    (l : List (List Byte)) (k : Nat) :
    (s.queueParts src tag code st n k l).pending = s.pending ∧ (s.queueParts src tag code st n k l).pins = s.pins ∧
    (s.queueParts src tag code st n k l).time = s.time ∧ (s.queueParts src tag code st n k l).portA = s.portA ∧
    (s.queueParts src tag code st n k l).portB = s.portB ∧ (s.queueParts src tag code st n k l).feeds = s.feeds ∧
    (s.queueParts src tag code st n k l).slots = s.slots ∧ (s.queueParts src tag code st n k l).delay = s.delay ∧
    (s.queueParts src tag code st n k l).emitter = s.emitter ∧ (s.queueParts src tag code st n k l).clips = s.clips ∧
    (s.queueParts src tag code st n k l).channels = s.channels ∧
    (s.queueParts src tag code st n k l).splice = s.splice ∧
    (s.queueParts src tag code st n k l).counters = s.counters ∧
    (s.queueParts src tag code st n k l).alarms = s.alarms ∧ (s.queueParts src tag code st n k l).runner = s.runner ∧
    (s.queueParts src tag code st n k l).out = s.out ∧
    (s.queueParts src tag code st n k l).faultCount = s.faultCount ∧
    (s.queueParts src tag code st n k l).engine.siteId = s.engine.siteId ∧
    (s.queueParts src tag code st n k l).engine.groups = s.engine.groups ∧
    (s.queueParts src tag code st n k l).engine.intake = s.engine.intake ∧
    (s.queueParts src tag code st n k l).engine.lastSource = s.engine.lastSource ∧
    (s.queueParts src tag code st n k l).engine.latched = s.engine.latched ∧
    (s.queueParts src tag code st n k l).engine.mask = s.engine.mask ∧
    (s.queueParts src tag code st n k l).engine.fresh = s.engine.fresh := by
  induction l generalizing s k with
  | nil => simp [State.queueParts]
  | cons d l ih =>
    unfold State.queueParts
    simp [ih]

/-- A command from one source, taken, changes the engine's last source and one count. -/
@[simp] theorem Engine.counted_keeps (g : Engine) (src : CommandSource) :
    (g.counted src).siteId = g.siteId ∧ (g.counted src).groups = g.groups ∧ (g.counted src).intake = g.intake ∧
    (g.counted src).latched = g.latched ∧ (g.counted src).mask = g.mask ∧ (g.counted src).fresh = g.fresh ∧
    (g.counted src).reports = g.reports ∧ (g.counted src).droppedFlag = g.droppedFlag := by
  cases src <;> simp [Engine.counted]

/-! ### Commands -/

/-- What no WRITE changes. -/
@[simp] theorem writeSpace_keeps (space : Byte) (index : Half) (entry : List Byte) :
    (writeSpace space index entry s).2.pending = s.pending ∧ (writeSpace space index entry s).2.pins = s.pins ∧
    (writeSpace space index entry s).2.delay = s.delay ∧ (writeSpace space index entry s).2.alarms = s.alarms ∧
    (writeSpace space index entry s).2.out = s.out ∧ (writeSpace space index entry s).2.faultCount = s.faultCount ∧
    (writeSpace space index entry s).2.clips.pages = s.clips.pages ∧
    (writeSpace space index entry s).2.clips.intake = s.clips.intake ∧
    (writeSpace space index entry s).2.clips.record = s.clips.record ∧
    (writeSpace space index entry s).2.splice.intake = s.splice.intake ∧
    (writeSpace space index entry s).2.splice.asRun = s.splice.asRun ∧
    (writeSpace space index entry s).2.splice.lastNoticed = s.splice.lastNoticed ∧
    (writeSpace space index entry s).2.emitter.reasons = s.emitter.reasons ∧
    (writeSpace space index entry s).2.emitter.phase = s.emitter.phase ∧
    (writeSpace space index entry s).2.time.state = s.time.state ∧
    (writeSpace space index entry s).2.time.ticks = s.time.ticks ∧
    (writeSpace space index entry s).2.time.seconds = s.time.seconds ∧
    (writeSpace space index entry s).2.engine.intake = s.engine.intake ∧
    (writeSpace space index entry s).2.engine.reports = s.engine.reports ∧
    (writeSpace space index entry s).2.engine.latched = s.engine.latched ∧
    (writeSpace space index entry s).2.engine.mask = s.engine.mask ∧
    (writeSpace space index entry s).2.engine.fresh = s.engine.fresh ∧
    (writeSpace space index entry s).2.runner.triggers = s.runner.triggers ∧
    (writeSpace space index entry s).2.runner.state = s.runner.state := by
  unfold writeSpace
  split
  · unfold writeLabel takeLabel
    (repeat' split) <;> simp
  · unfold writeService takeService
    dsimp only
    (repeat' split) <;> simp
  · unfold writeBreak takeBreak
    (repeat' split) <;> simp
  · unfold writeSettings takeSettings State.applySettings
    dsimp only
    (repeat' split) <;> simp
  · unfold writeCounter takeCounter
    (repeat' split) <;> simp
  · unfold writeDescriptor takeDescriptor
    dsimp only
    (repeat' split) <;> simp
  · unfold writeStored takeStored
    (repeat' split) <;> simp
  · simp

/-- What no management command changes: the commands waiting, the pins, the DDR and two intakes. -/
@[simp] theorem runCommand_keeps (c : Command) :
    (runCommand c s).after.pending = s.pending ∧ (runCommand c s).after.pins = s.pins ∧
    (runCommand c s).after.delay = s.delay ∧ (runCommand c s).after.faultCount = s.faultCount ∧
    (runCommand c s).after.clips.pages = s.clips.pages ∧ (runCommand c s).after.clips.intake = s.clips.intake ∧
    (runCommand c s).after.splice.intake = s.splice.intake := by
  cases c with
  | write a b d => simp [runCommand, noData]
  | read a b d =>
    simp only [runCommand, runRead]
    split <;> simp [refused]
  | describe a =>
    simp only [runCommand, runDescribe]
    split <;> simp [refused]
  | clipDefine a b c d e f g =>
    simp only [runCommand, noData, defineClip]
    (repeat' split) <;> simp
  | clipRelease a =>
    simp only [runCommand, noData, releaseClip]
    (repeat' split) <;> simp
  | cancelBreak a b =>
    simp only [runCommand, noData, cancelCommand]
    split
    · simp
    · unfold State.cancelBreak?
      rename_i n _
      cases findBreak b (s.schedule n) <;> simp
  | eventMask a b =>
    simp only [runCommand, runEventMask]
    (repeat' split) <;> simp [refused]
  | eventRead => simp [runCommand, runEventRead]
  | clipFault => simp [runCommand, runClipFault]
  | counter a b =>
    simp only [runCommand, noData, counterCommand]
    (repeat' split) <;> simp
  | alarmArm a b c =>
    simp only [runCommand, noData, armAlarm]
    (repeat' split) <;> simp
  | alarmDisarm a =>
    simp only [runCommand, noData, disarmAlarm]
    (repeat' split) <;> simp
  | runList a =>
    simp only [runCommand, noData, runListCommand]
    (repeat' split) <;> simp
  | mute a =>
    simp only [runCommand, runMute, noData]
    (repeat' split) <;> simp [refused]
  | resetSite a =>
    simp only [runCommand, runReset, noData]
    (repeat' split) <;> simp [refused]
  | unknown a => simp [runCommand, refused]

/-! ### Taking commands -/

@[simp] theorem State.execute_keeps (src : CommandSource) (tag : Half) (c : Command) :
    (s.execute src tag c).pending = s.pending ∧ (s.execute src tag c).pins = s.pins ∧
    (s.execute src tag c).delay = s.delay ∧ (s.execute src tag c).faultCount = s.faultCount ∧
    (s.execute src tag c).clips.pages = s.clips.pages ∧ (s.execute src tag c).clips.intake = s.clips.intake ∧
    (s.execute src tag c).splice.intake = s.splice.intake := by
  simp [State.execute, Done.replied]

@[simp] theorem State.executeList_keeps (tag : Half) (c : Command) :
    (s.executeList tag c).pending = s.pending ∧ (s.executeList tag c).pins = s.pins ∧
    (s.executeList tag c).delay = s.delay ∧ (s.executeList tag c).faultCount = s.faultCount ∧
    (s.executeList tag c).clips.pages = s.clips.pages ∧ (s.executeList tag c).clips.intake = s.clips.intake ∧
    (s.executeList tag c).splice.intake = s.splice.intake := by
  simp [State.executeList]

@[simp] theorem State.takeOffered_keeps :
    s.takeOffered.pending = s.pending ∧ s.takeOffered.pins = s.pins ∧ s.takeOffered.delay = s.delay ∧
    s.takeOffered.faultCount = s.faultCount ∧ s.takeOffered.clips.pages = s.clips.pages ∧
    s.takeOffered.clips.intake = s.clips.intake ∧ s.takeOffered.splice.intake = s.splice.intake := by
  unfold State.takeOffered
  split <;> simp

@[simp] theorem State.takeCell_keeps (p : Payload) :
    (s.takeCell p).pending = s.pending ∧ (s.takeCell p).pins = s.pins ∧ (s.takeCell p).delay = s.delay ∧
    (s.takeCell p).faultCount = s.faultCount ∧ (s.takeCell p).clips.pages = s.clips.pages ∧
    (s.takeCell p).clips.intake = s.clips.intake ∧ (s.takeCell p).splice.intake = s.splice.intake := by
  unfold State.takeCell
  dsimp only
  split <;> simp

@[simp] theorem State.takeIntake_keeps :
    s.takeIntake.pending = s.pending ∧ s.takeIntake.pins = s.pins ∧ s.takeIntake.delay = s.delay ∧
    s.takeIntake.faultCount = s.faultCount ∧ s.takeIntake.clips.pages = s.clips.pages ∧
    s.takeIntake.clips.intake = s.clips.intake ∧ s.takeIntake.splice.intake = s.splice.intake := by
  unfold State.takeIntake
  split <;> simp

@[simp] theorem State.engineTakes_keeps :
    s.engineTakes.pending = s.pending ∧ s.engineTakes.pins = s.pins ∧ s.engineTakes.delay = s.delay ∧
    s.engineTakes.faultCount = s.faultCount ∧ s.engineTakes.clips.pages = s.clips.pages ∧
    s.engineTakes.clips.intake = s.clips.intake ∧ s.engineTakes.splice.intake = s.splice.intake := by
  unfold State.engineTakes
  split <;> simp

@[simp] theorem State.commandFrom_keeps (o : Origin) (c : Command) :
    (s.commandFrom o c).pending = s.pending ∧ (s.commandFrom o c).pins = s.pins ∧
    (s.commandFrom o c).delay = s.delay ∧ (s.commandFrom o c).faultCount = s.faultCount ∧
    (s.commandFrom o c).clips.pages = s.clips.pages ∧ (s.commandFrom o c).clips.intake = s.clips.intake ∧
    (s.commandFrom o c).splice.intake = s.splice.intake := by
  unfold State.commandFrom
  (repeat' split) <;> simp

end Sys2Proof.Machine
end

