-- ==== Sys2Proof/Laws/Actions.lean ====
section
/-! SUPPORT. Laws/Actions.lean: what a push of a trigger can do, a BAD report of a copy, a status given back to the List
Runner, a break's leaving, a count that parts a TIMING cell from the next millisecond event, the judgement of a depth, a
test for a fetch and a take, each said whole once, with the small lemmas of their parts. -/

namespace Sys2Proof.Machine

variable (s : State)

/-! ### The List Runner: takings and pushes (R166, R167) -/

/-- A number below its bound is an index. -/
theorem index?_eq {n k : Nat} (h : k < n) : index? n k = some ⟨k, h⟩ := by simp [index?, h]

/-- R167: a RUNNING runner takes no trigger. -/
theorem State.takeTrigger_running (h : s.runner.state ≠ .idle) : s.takeTrigger = s := by
  unfold State.takeTrigger
  split
  · rename_i h1 _; exact absurd h1 h
  · rfl

/-- R167: a runner with nothing waiting takes no trigger. -/
theorem State.takeTrigger_none (h : s.runner.triggers = []) : s.takeTrigger = s := by
  unfold State.takeTrigger
  split
  · rename_i h1; simp [h] at h1
  · rfl

/-- R167: a RUNNING runner takes none of the triggers that wait. -/
theorem takeTriggers_running (h : s.runner.state ≠ .idle) (k : Nat) : takeTriggers k s = s := by
  induction k with
  | zero => rfl
  | succ k ih => rw [takeTriggers, s.takeTrigger_running h, ih]

/-- R167: a RUNNING runner takes nothing. -/
theorem State.runnerTakes_running (h : s.runner.state ≠ .idle) : s.runnerTakes = s := takeTriggers_running s h _

/-- R167: a runner with nothing waiting takes nothing. -/
theorem State.runnerTakes_none (h : s.runner.triggers = []) : s.runnerTakes = s := by
  unfold State.runnerTakes
  rw [h]
  rfl

/-- R167: taking what waits is taking the oldest trigger and then what still waits. -/
theorem State.runnerTakes_takeTrigger : s.takeTrigger.runnerTakes = s.runnerTakes := by
  by_cases h : s.runner.state = .idle
  · cases ht : s.runner.triggers with
    | nil => rw [s.takeTrigger_none ht]
    | cons l rest =>
      have : s.takeTrigger.runner.triggers = rest := by
        unfold State.takeTrigger
        simp only [h, ht]
        split <;> simp
      unfold State.runnerTakes
      rw [this, ht]
      rfl
  · rw [s.takeTrigger_running h]

/-- R167: what taking the oldest trigger does when its list is defined. -/
theorem State.takeTrigger_defined {l : Fin 16} {rest : List (Fin 16)} {i : Fin 256} (h : s.runner.state = .idle)
    (ht : s.runner.triggers = l :: rest) (hd : (s.runner.descriptors.get l).defined = true)
    (hi : i.val = (s.runner.descriptors.get l).first) :
    s.takeTrigger = { s with runner := { s.runner with
      triggers := rest
      counts := { s.runner.counts with started := s.runner.counts.started + 1 }
      state := .running l (s.runner.descriptors.get l).first (s.runner.descriptors.get l).length 0
        (s.runner.store.get i) } } := by
  have hx : index? 256 (s.runner.descriptors.get l).first = some i := by rw [← hi]; exact index?_eq i.isLt
  simp only [State.takeTrigger, h, ht, hd, if_true, State.storedAt, hx]

/-- R167, R168: what taking the oldest trigger does when its list is undefined. -/
theorem State.takeTrigger_undefined {l : Fin 16} {rest : List (Fin 16)} (h : s.runner.state = .idle)
    (ht : s.runner.triggers = l :: rest) (hd : (s.runner.descriptors.get l).defined = false) :
    s.takeTrigger = { s with
      runner := { s.runner with
        triggers := rest
        fault := some ⟨l, 0, .state⟩
        counts := { s.runner.counts with
          started := s.runner.counts.started + 1, faults := s.runner.counts.faults + 1 } }
      engine := s.engine.latch .listFault } := by
  simp only [State.takeTrigger, h, ht, hd, Bool.false_eq_true, if_false]
  unfold State.listFails State.latch
  rfl

/-- R166, R167: everything a push can do. -/
theorem State.push_pushed (l : Fin 16) : Pushed s.runner s.engine l (s.push l).runner (s.push l).engine := by
  refine ⟨fun h hr => ?_, fun h hr => ?_, fun h ht hd i hi => ?_, fun h ht hd => ?_, fun x xs h ht hr hd i hi => ?_⟩
  · have hf : s.triggersFull = false := decide_eq_false (Nat.not_le.mpr hr)
    unfold State.push
    rw [s.runnerTakes_running h, State.joinTrigger, hf]
    rw [State.runnerTakes_running _ (by simpa using h)]
    exact ⟨rfl, rfl⟩
  · have hf : s.triggersFull = true := decide_eq_true hr
    unfold State.push
    rw [s.runnerTakes_running h, State.joinTrigger, hf]
    rw [State.runnerTakes_running _ (by simpa using h)]
    exact ⟨rfl, rfl⟩
  · have hf : s.triggersFull = false := by simp [State.triggersFull, Config.triggerRoom, ht]
    unfold State.push
    rw [s.runnerTakes_none ht, State.joinTrigger, hf]
    simp only [Bool.false_eq_true, if_false, ht, List.nil_append]
    rw [← State.runnerTakes_takeTrigger, State.takeTrigger_defined (l := l) (rest := []) (i := i) _ (by simpa using h)
      (by simp) (by simpa using hd) (by simpa using hi)]
    rw [State.runnerTakes_none _ rfl]
    exact ⟨rfl, rfl⟩
  · have hf : s.triggersFull = false := by simp [State.triggersFull, Config.triggerRoom, ht]
    unfold State.push
    rw [s.runnerTakes_none ht, State.joinTrigger, hf]
    simp only [Bool.false_eq_true, if_false, ht, List.nil_append]
    rw [← State.runnerTakes_takeTrigger, State.takeTrigger_undefined (l := l) (rest := []) _ (by simpa using h)
      (by simp) (by simpa using hd)]
    rw [State.runnerTakes_none _ rfl]
    exact ⟨by simp [h], rfl⟩
  · unfold State.push
    rw [← s.runnerTakes_takeTrigger, s.takeTrigger_defined h ht hd hi]
    generalize hu : ({ s with runner := _ } : State) = u
    have hi : u.runner.state ≠ .idle := by subst hu; simp
    have hf : u.triggersFull = false := by subst hu; exact decide_eq_false (Nat.not_le.mpr hr)
    rw [u.runnerTakes_running hi, State.joinTrigger, hf]
    rw [State.runnerTakes_running _ (by simpa using hi)]
    subst hu
    exact ⟨rfl, rfl⟩

/-! ### A BAD report (R53, R58) -/

/-- A slot after one slot is replaced. -/
theorem State.slot_setSlot (i j : Fin 256) (x : Slot) : (s.setSlot i x).slot j = if j = i then x else s.slot j := by
  unfold State.slot State.setSlot
  split
  · subst i; simp
  · rename_i h; simp [Ne.symm h]

/-- R41: a copy that is not FILLING is not withdrawn. -/
theorem State.withdrawCopy_idle (i : Fin 256) (f : Feed) (h : ((s.slot i).copy f).state ≠ .filling) :
    s.withdrawCopy i f = s := by
  unfold State.withdrawCopy
  rw [if_neg h]

/-- R52: a slot without a FILLING copy returns to FREE, and nothing else changes. -/
theorem State.freeSlot_idle (i : Fin 256) (h : ∀ f, ((s.slot i).copy f).state ≠ .filling) :
    s.freeSlot i = s.setSlot i Slot.free := by
  unfold State.freeSlot State.withdrawCopies
  rw [s.withdrawCopy_idle i .A (h .A), s.withdrawCopy_idle i .B (h .B)]

/-- R58: the test of a slot, when it finds it lost. -/
theorem State.lossTest_lost (i : Fin 256) (h : s.slotLost i = true) :
    s.lossTest i = ((s.setSlot i Slot.free).countSlots fun c => { c with lost := c.lost + 1 }).latch .blockDrop := by
  have hf : ∀ f, ((s.slot i).copy f).state ≠ .filling := by
    intro f hf
    cases f <;> simp [State.slotLost, Copy.alive, Slot.copy] at h hf <;> simp [hf] at h
  unfold State.lossTest
  rw [if_pos h, s.freeSlot_idle i hf]

/-- R53, R58: all that a BAD report does that the slot expects. -/
theorem State.reportBad_fits (f : Feed) (c : CopyRef) (received : Nat) (h : s.reportFits f c = true) :
    BadReport s (s.reportBad f c received) s.engine f c.slot received ∧
    s.reportBad f c received =
      { s with slots := (s.reportBad f c received).slots, engine := (s.reportBad f c received).engine } ∧
    (s.reportBad f c received).slots =
      { s.slots with
        slots := (s.reportBad f c received).slots.slots, counts := (s.reportBad f c received).slots.counts } := by
  have hb : s.reportBad f c received =
      (s.setSlot c.slot ((s.slot c.slot).setCopy f ⟨.bad, received⟩)).lossTest c.slot := by
    unfold State.reportBad
    rw [if_pos h]
  have hl : (s.setSlot c.slot ((s.slot c.slot).setCopy f ⟨.bad, received⟩)).slotLost c.slot = true ↔
      ((s.slot c.slot).setCopy f ⟨.bad, received⟩).state = .opened ∧
        ((s.slot c.slot).copy (otherFeed f)).state ≠ .good ∧ ((s.slot c.slot).copy (otherFeed f)).state ≠ .filling ∧
        (((s.slot c.slot).copy (otherFeed f)).state = .bad ∨
          0 ≤ diff s.now ((s.slot c.slot).setCopy f ⟨.bad, received⟩).stamp) := by
    cases f <;> simp [State.slotLost, Copy.alive, State.slot_setSlot, Slot.setCopy, Slot.copy, otherFeed, State.reached,
      State.now, and_assoc]
  rw [hb]
  unfold BadReport
  dsimp only
  rw [← hl]
  by_cases hx : (s.setSlot c.slot ((s.slot c.slot).setCopy f ⟨.bad, received⟩)).slotLost c.slot = true
  · rw [State.lossTest_lost _ _ hx]
    refine ⟨⟨fun _ => ⟨?_, rfl, rfl⟩, fun hn => absurd hx hn, ?_, rfl, ?_⟩, rfl, rfl⟩
    · show ((s.setSlot c.slot _).setSlot c.slot Slot.free).slot c.slot = _
      simp [State.slot_setSlot]
    · intro j hj
      show ((s.setSlot c.slot _).setSlot c.slot Slot.free).slot j = _
      simp [State.slot_setSlot, hj]
    · cases f <;> rfl
  · have : (s.setSlot c.slot ((s.slot c.slot).setCopy f ⟨.bad, received⟩)).lossTest c.slot =
        s.setSlot c.slot ((s.slot c.slot).setCopy f ⟨.bad, received⟩) := by
      unfold State.lossTest
      rw [if_neg hx]
    rw [this]
    refine ⟨⟨fun h => absurd h hx, fun _ => ⟨?_, rfl, rfl⟩, ?_, rfl, ?_⟩, rfl, rfl⟩
    · simp [State.slot_setSlot]
    · intro j hj
      simp [State.slot_setSlot, hj]
    · cases f <;> rfl

/-- R53: a report the slot does not expect is ignored. -/
theorem State.reportBad_ignored (f : Feed) (c : CopyRef) (received : Nat) (h : s.reportFits f c = false) :
    s.reportBad f c received = s := by
  unfold State.reportBad
  simp [h]

/-! ### The status of a runner's command (R168) -/

/-- R168: all that a returned status does: nothing to an IDLE runner; else the next command offered, the list completed,
or a list fault. -/
theorem State.returnStatus_does (st : Status) :
    (s.runner.state = .idle → s.returnStatus st = s) ∧
    ∀ l first length index body, s.runner.state = .running l first length index body →
      (st = .ok → index + 1 = length →
        s.returnStatus st = { s with runner := { s.runner with
          state := .idle, counts := { s.runner.counts with completed := s.runner.counts.completed + 1 } } }) ∧
      (st = .ok → index + 1 ≠ length → ∀ next : Fin 256, next.val = first + (index + 1) →
        s.returnStatus st = { s with runner := { s.runner with
          state := .running l first length (index + 1) (s.runner.store.get next) } }) ∧
      (st ≠ .ok →
        s.returnStatus st = { s with
          runner := { s.runner with
            state := .idle, fault := some ⟨l, index, st⟩
            counts := { s.runner.counts with faults := s.runner.counts.faults + 1 } }
          engine := s.engine.latch .listFault }) := by
  refine ⟨fun h => by simp [State.returnStatus, h], ?_⟩
  intro l first length index body h
  refine ⟨fun hs hi => by simp [State.returnStatus, h, hs, hi], ?_, ?_⟩
  · intro hs hi next hn
    simp only [State.returnStatus, h, hs, hi, if_true, if_false, State.storedAt]
    rw [← hn, index?_eq next.isLt]
  · intro hs
    simp only [State.returnStatus, h, hs, if_false]
    rfl

/-! ### An entry that leaves (R149) -/

/-- R109: a release takes from each clip's use count as often as the list names it. -/
theorem State.releaseList_clip (l : List (Fin 128)) (k : Fin 128) :
    (s.releaseList l).clip k = { s.clip k with useCount := (s.clip k).useCount - l.count k } := by
  unfold State.releaseList
  induction l generalizing s with
  | nil => simp
  | cons a l ih =>
    rw [List.foldl_cons, ih]
    unfold State.dropUse State.setClip State.clip
    dsimp only
    rw [Table.get_set, List.count_cons]
    by_cases h : a = k
    · subst h; simp [Nat.sub_sub, Nat.add_comm]
    · simp [h]

/-- R109: a release changes the directory alone. -/
theorem State.releaseList_only (l : List (Fin 128)) :
    s.releaseList l = { s with clips := { s.clips with entries := (s.releaseList l).clips.entries } } := by
  unfold State.releaseList
  induction l generalizing s with
  | nil => rfl
  | cons a l ih => rw [List.foldl_cons, ih]; rfl

/-- R149, steps 1 to 4: all that an entry's leaving does. -/
theorem State.leaveEffects_left (n : Fin 8) (e : ScheduleEntry) (o : BreakOutcome) (r : BreakReason) :
    EntryLeft s (s.leaveEffects n e o r) n e o r ∧ (s.leaveEffects n e o r).splice.schedules = s.splice.schedules := by
  have hp : e.primed = true ↔ e.hadPrime := by simp [ScheduleEntry.primed, or_assoc]
  have ha : (decide (e.state = .active) && !e.cancelRequested) = true ↔ e.state = .active ∧ e.cancelRequested = false := by
    simp
  unfold State.leaveEffects
  dsimp only
  generalize hs1 : (if e.primed = true then s.flush (serviceChannel n) else s) = s1
  generalize hs2 : (if (decide (e.state = .active) && !e.cancelRequested) = true then s1.pendService n else s1) = s2
  have h1 : s1 = { s with channels := s1.channels } ∧
      ∀ k, s1.channel k = if k = serviceChannel n ∧ e.hadPrime then (s.channel k).parkedBy 1 else s.channel k := by
    subst hs1
    split
    · next h =>
      refine ⟨rfl, fun k => ?_⟩
      show (s.channels.set (serviceChannel n) _).get k = _
      rw [Table.get_set]
      by_cases hk : serviceChannel n = k
      · subst hk; simp [hp.1 h, State.channel, Channel.flushed, Channel.parkedBy]
      · simp [hk, Ne.symm hk, State.channel]
    · next h =>
      refine ⟨rfl, fun k => ?_⟩
      rw [if_neg fun x => h (hp.2 x.2)]
  have h2 : s2 = { s1 with emitter := { s1.emitter with labels := s2.emitter.labels } } ∧
      ∀ l, s2.label l = if (s.label l).role = .service ∧ (s.label l).service.toNat = n.val ∧ e.state = .active ∧
        e.cancelRequested = false then { s.label l with pending := true } else s.label l := by
    have hl : ∀ l, s1.label l = s.label l := fun l => by rw [h1.1]; rfl
    subst hs2
    split
    · next h =>
      refine ⟨rfl, fun l => ?_⟩
      show (s1.emitter.labels.map _).get _ = _
      rw [Table.get_map]
      show (if decide ((s1.label l).role = _ ∧ _) = true then _ else s1.label l) = _
      have := hl l
      unfold State.label at this ⊢
      simp only [this, ha.1 h, and_true, decide_eq_true_eq]
    · next h =>
      refine ⟨rfl, fun l => ?_⟩
      rw [hl, if_neg fun x => h (ha.2 x.2.2)]
  have h3 := s2.releaseList_only e.clips
  have h4 := fun k => s2.releaseList_clip e.clips k
  generalize s2.releaseList e.clips = s3 at h3 h4
  have hs : s3 = { s with
      channels := s1.channels, emitter := { s.emitter with labels := s2.emitter.labels }
      clips := { s.clips with entries := s3.clips.entries } } := by
    rw [h3, h2.1, h1.1]
  have hw : s3.writeRecord n e o r = { s3 with
      splice := { s3.splice with
        asRun := (s3.asRunOf n e o r :: s3.splice.asRun).take 64, lastAsRun := s3.splice.lastAsRun + 1 }
      engine := s3.engine.latch .breakDone } := rfl
  rw [hw]
  unfold EntryLeft
  refine ⟨⟨fun k => ?_, fun k => ?_, fun l => ?_, ?_, ?_⟩, ?_⟩
  · show s3.channels.get k = _
    rw [hs]; exact h1.2 k
  · show s3.clip k = _
    rw [h4, h2.1, h1.1]; rfl
  · show s3.emitter.labels.get _ = _
    rw [hs]; exact h2.2 l
  · rw [hs]; rfl
  · rw [hs]
  · rw [hs]

/-! ### Counting (R17, R48) -/

/-- R10, R18, R48: a count up does nothing, or moves the count, drops both ports' notes, and leaves the event of a multiple
of 10,000 due. -/
theorem State.passTo_does (k : Nat) :
    (¬(s.time.ticks.val < k ∧ k < 10000000) ∧ s.passTo k = s) ∨
    ∃ h : s.time.ticks.val < k ∧ k < 10000000,
      s.passTo k = { s.laterPorts with
        time := { s.time with ticks := ⟨k, h.2⟩ }, eventDue := decide (k % 10000 = 0) } := by
  by_cases h : s.time.ticks.val < k ∧ k < 10000000
  · exact .inr ⟨h, dif_pos h⟩
  · exact .inl ⟨h, dif_neg h⟩

/-- R17, R18: an event still due is issued, or there is none. -/
theorem State.settleEvent_does :
    (s.eventDue = true ∧ s.settleEvent = s.issueEvent) ∨ (s.eventDue = false ∧ s.settleEvent = s) := by
  cases h : s.eventDue <;> simp [State.settleEvent, h]

/-- R18: no multiple lies between the count and a tick of the present millisecond. -/
theorem State.passMultiples_near {k : Nat} (n : Nat) (h : k ≤ s.time.nextMillisecond) : State.passMultiples k n s = s := by
  cases n with
  | zero => rfl
  | succ n => exact if_neg (Nat.not_lt.mpr h)

/-- R18: the next multiple that lies between is reached by counting and has its event. -/
theorem State.passMultiples_next {k : Nat} (n : Nat) (h : s.time.nextMillisecond < k) :
    State.passMultiples k (n + 1) s = State.passMultiples k n (s.passTo s.time.nextMillisecond).issueEvent := if_pos h

/-- R17, R18, R23: a count to a tick that is not ahead does nothing; any other does what lies on its way, in order. -/
theorem State.countTo_does (k : Nat) :
    (¬(s.time.ticks.val < k ∧ k < 10000000) ∧ s.countTo k = s) ∨
    ((s.time.ticks.val < k ∧ k < 10000000) ∧
      s.countTo k = ((State.passMultiples k 1000 (s.settleEvent.missTest k)).openTest k).passTo k) := by
  by_cases h : s.time.ticks.val < k ∧ k < 10000000
  · exact .inr ⟨h, if_pos h⟩
  · exact .inl ⟨h, if_neg h⟩

/-! ### A depth and a refill mark (R119, R120) -/

/-- R119: the sum of the nine depths with one of them replaced. -/
theorem State.depthSum_eq (n : Fin 9) (depth : Nat) :
    s.depthSum n depth = ((List.finRange 9).map fun k => if k = n then depth else (s.channel k).depth).sum := by
  unfold State.depthSum
  rw [Table.items_map]
  congr 1
  refine List.map_congr_left fun k _ => ?_
  rw [Table.get_set]
  by_cases h : n = k
  · simp [h]
  · simp [h, Ne.symm h, State.channel]

/-- R120: everything the three tests can answer. -/
theorem judgeDepth_answers (n : Fin 9) (depth refill : Nat) :
    DepthAnswer s n depth refill (judgeDepth s n depth refill) := by
  unfold DepthAnswer judgeDepth
  simp only [s.depthSum_eq, Nat.dvd_iff_mod_eq_zero]

/-! ### Fetches and takes (R122, R128) -/

/-- R122: the model's test of a channel is the rule's conditions. -/
theorem Channel.wantsFetch_iff (c : Channel) : c.wantsFetch = true ↔ c.fetches := by
  unfold Channel.wantsFetch Channel.fetches
  cases h : c.state <;> simp [and_assoc]

/-- R122: all that a test of a channel for a fetch does there and to the reads in flight. -/
theorem State.fetchTest_tested (n : Fin 9) : FetchTested s (s.fetchTest n) n (s.channel n) := by
  have iff := (s.channel n).wantsFetch_iff
  unfold FetchTested State.fetchTest Channel.clipNow Channel.fetchCount
  refine ⟨fun k hk hf ha => ?_, fun h => ?_⟩
  · simp only [hk, iff.mpr hf, Config.fetchCells, ha, decide_true, Bool.and_self, if_true, and_true]
    exact Table.get_set_self ..
  · cases hk : (s.channel n).clips[(s.channel n).listIndex]? with
    | none => simp [hk]
    | some k =>
      simp only [hk]
      split
      · rename_i hw
        rw [Bool.and_eq_true] at hw
        rcases h with e | e
        · exact absurd (iff.mp hw.1) e
        · exact absurd (e k hk) (Nat.ne_of_gt (of_decide_eq_true hw.2))
      · exact ⟨rfl, rfl⟩

/-- R122: it changes no other channel. -/
theorem State.fetchTest_other {n k : Fin 9} (h : k ≠ n) : (s.fetchTest n).channel k = s.channel k := by
  simp only [State.fetchTest]
  split
  · rfl
  · split
    · exact Table.get_set_ne _ _ (Ne.symm h)
    · rfl

/-- R122: of the Clip Store it changes the reads in flight. -/
theorem State.fetchTest_clips (n : Fin 9) :
    (s.fetchTest n).clips = { s.clips with reads := (s.fetchTest n).clips.reads } := by
  simp only [State.fetchTest]
  split
  · rfl
  · split <;> rfl

/-- R128: all that a take does to the channels and the Clip Store. -/
theorem State.take_made (n : Fin 9) : TakeMade s (s.take n).2 n := by
  have tested : ∀ c, FetchTested s ((s.setChannel n c).fetchTest n) n c := fun c => by
    have h := (s.setChannel n c).fetchTest_tested n
    rwa [show (s.setChannel n c).channel n = c from Table.get_set_self ..] at h
  have other : ∀ c k, k ≠ n → ((s.setChannel n c).fetchTest n).channel k = s.channel k := fun c k h =>
    ((s.setChannel n c).fetchTest_other h).trans (Table.get_set_ne _ _ (Ne.symm h))
  have store : ∀ c, ((s.setChannel n c).fetchTest n).clips =
      { s.clips with reads := ((s.setChannel n c).fetchTest n).clips.reads } := fun c => (s.setChannel n c).fetchTest_clips n
  unfold TakeMade State.take
  cases hq : (s.channel n).queue with
  | nil =>
    simp only [hq]
    exact ⟨nofun, fun _ => hq ▸ tested _, other _, store _⟩
  | cons e rest =>
    simp only [hq]
    exact ⟨fun x more h => (List.cons.inj h).2 ▸ tested _, nofun, other _, store _⟩
end Sys2Proof.Machine
end

