-- ==== Sys2Proof/Laws/Memory.lean ====
section
/-! SUPPORT. Laws/Memory.lean: what a memory reads after a write, and that a write keeps the canonical form. -/

namespace Sys2Proof.Machine

/-- What an address reads in a memory that lists it, whatever the order. -/
theorem memRead_nil (a : Nat) : memRead [] a = 0 := rfl

theorem memRead_cons (c : Host.Cell) (m : Memory) (a : Nat) :
    memRead (c :: m) a = if c.1 = a then c.2 else memRead m a := by
  unfold memRead
  rw [List.find?_cons]
  by_cases h : c.1 = a <;> simp [h]

/-- A part that does not list an address does not change what it reads. -/
theorem memRead_append (m n : Memory) (a : Nat) :
    memRead (m ++ n) a = if (∃ c ∈ m, c.1 = a) then memRead m a else memRead n a := by
  induction m with
  | nil => simp
  | cons c m ih =>
    rw [List.cons_append, memRead_cons, memRead_cons, ih]
    by_cases h : c.1 = a
    · simp [h]
    · simp [h]

theorem memRead_of_not_mem (m : Memory) (a : Nat) (h : ¬∃ c ∈ m, c.1 = a) : memRead m a = 0 := by
  induction m with
  | nil => rfl
  | cons c m ih =>
    rw [memRead_cons]
    have h1 : c.1 ≠ a := fun e => h ⟨c, by simp, e⟩
    rw [if_neg h1]
    exact ih fun ⟨d, hd, e⟩ => h ⟨d, by simp [hd], e⟩

/-- What a filter by address leaves reads as before. -/
theorem memRead_filter (m : Memory) (p : Nat → Bool) (a : Nat) :
    memRead (m.filter fun c => p c.1) a = if p a then memRead m a else 0 := by
  induction m with
  | nil => simp [memRead_nil]
  | cons c m ih =>
    rw [List.filter_cons]
    by_cases hp : p c.1 = true
    · rw [if_pos hp, memRead_cons, memRead_cons, ih]
      by_cases h : c.1 = a
      · subst h; simp [hp]
      · simp [h]
    · rw [if_neg hp, ih, memRead_cons]
      by_cases h : c.1 = a
      · subst h; simp [hp]
      · simp [h]

/-- Every listed address of a run lies in it, and its byte is not 0. -/
theorem mem_listedBytes (bs : List Byte) : ∀ (a : Nat), ∀ c ∈ listedBytes a bs,
    a ≤ c.1 ∧ c.1 < a + bs.length ∧ c.2 ≠ 0 := by
  induction bs with
  | nil => intro a c h; simp [listedBytes] at h
  | cons b bs ih =>
    intro a c h
    unfold listedBytes at h
    split at h
    · have := ih (a + 1) c h
      simp only [List.length_cons]
      exact ⟨by omega, by omega, this.2.2⟩
    · rcases List.mem_cons.1 h with rfl | h
      · simp only [List.length_cons]
        refine ⟨Nat.le_refl _, by omega, ?_⟩
        assumption
      · have := ih (a + 1) c h
        simp only [List.length_cons]
        exact ⟨by omega, by omega, this.2.2⟩

theorem memRead_listedBytes (bs : List Byte) : ∀ (a x : Nat),
    memRead (listedBytes a bs) x = if a ≤ x then bs.getD (x - a) 0 else 0 := by
  induction bs with
  | nil => intro a x; simp [listedBytes, memRead_nil]
  | cons b bs ih =>
    intro a x
    have key : ∀ h : a + 1 ≤ x, (b :: bs).getD (x - a) 0 = bs.getD (x - (a + 1)) 0 := by
      intro h
      have : x - a = (x - (a + 1)) + 1 := by omega
      rw [this, List.getD_cons_succ]
    unfold listedBytes
    split
    · next h =>
      rw [ih]
      by_cases h1 : a + 1 ≤ x
      · rw [if_pos h1, if_pos (by omega), key h1]
      · rw [if_neg h1]
        by_cases h2 : a ≤ x
        · have : x - a = 0 := by omega
          rw [if_pos h2, this]; simp [h]
        · rw [if_neg h2]
    · next h =>
      rw [memRead_cons, ih]
      by_cases h0 : a = x
      · subst h0; simp
      · simp only [h0, if_false]
        by_cases h1 : a + 1 ≤ x
        · rw [if_pos h1, if_pos (by omega), key h1]
        · rw [if_neg h1, if_neg (by omega)]

/-- Read after write: a byte of the run reads as written, every other as before. -/
theorem memRead_memWrite (m : Memory) (a x : Nat) (bs : List Byte) :
    memRead (memWrite m a bs) x = if a ≤ x ∧ x < a + bs.length then bs.getD (x - a) 0 else memRead m x := by
  have hb : ∀ h : ¬(a ≤ x ∧ x < a + bs.length), memRead (listedBytes a bs) x = 0 := by
    intro h
    rw [memRead_listedBytes]
    split
    · rw [List.getD_eq_getElem?_getD, List.getElem?_eq_none (by omega)]; rfl
    · rfl
  have e : ∀ p : Nat → Bool, memRead (m.filter fun c => p c.1) x = if p x then memRead m x else 0 :=
    fun p => memRead_filter m p x
  unfold memWrite
  rw [memRead_append, memRead_append]
  have e1 := e fun k => decide (k < a)
  have e2 := e fun k => decide (a + bs.length ≤ k)
  simp only [decide_eq_true_eq] at e1 e2
  rw [e1, e2, memRead_listedBytes]
  by_cases h1 : ∃ c ∈ m.filter (fun c => decide (c.1 < a)) ++ listedBytes a bs, c.1 = x
  · rw [if_pos h1]
    by_cases h2 : ∃ c ∈ m.filter (fun c => decide (c.1 < a)), c.1 = x
    · rw [if_pos h2]
      obtain ⟨c, hc, rfl⟩ := h2
      have : c.1 < a := by simpa using (List.mem_filter.1 hc).2
      rw [if_pos this, if_neg (by omega)]
    · rw [if_neg h2]
      obtain ⟨c, hc, rfl⟩ := h1
      rcases List.mem_append.1 hc with hc | hc
      · exact absurd ⟨c, hc, rfl⟩ h2
      · have := mem_listedBytes bs a c hc
        rw [if_pos this.1, if_pos ⟨this.1, this.2.1⟩]
  · rw [if_neg h1]
    by_cases h3 : a ≤ x ∧ x < a + bs.length
    · rw [if_pos h3, if_neg (by omega)]
      have h4 : ¬∃ c ∈ listedBytes a bs, c.1 = x := fun ⟨c, hc, e⟩ => h1 ⟨c, List.mem_append_right _ hc, e⟩
      have := memRead_of_not_mem _ _ h4
      rw [memRead_listedBytes, if_pos h3.1] at this
      rw [this]
    · rw [if_neg h3]
      by_cases h5 : a + bs.length ≤ x
      · rw [if_pos h5]
      · rw [if_neg h5]
        have h6 : x < a := by omega
        have h7 : ¬∃ c ∈ m.filter (fun c => decide (c.1 < a)), c.1 = x :=
          fun ⟨c, hc, e⟩ => h1 ⟨c, List.mem_append_left _ hc, e⟩
        have := memRead_of_not_mem _ _ h7
        rw [e1, if_pos h6] at this
        rw [this]

theorem listedBytes_sorted (bs : List Byte) : ∀ (a : Nat), (listedBytes a bs).Pairwise fun x y => x.1 < y.1 := by
  induction bs with
  | nil => intro a; simp [listedBytes]
  | cons b bs ih =>
    intro a
    unfold listedBytes
    split
    · exact ih (a + 1)
    · rw [List.pairwise_cons]
      refine ⟨fun c hc => ?_, ih (a + 1)⟩
      have := (mem_listedBytes bs (a + 1) c hc).1
      show a < c.1
      omega

/-- A write keeps the canonical form. -/
theorem memWrite_wf (m : Memory) (a : Nat) (bs : List Byte) (h : Memory.wf m) : Memory.wf (memWrite m a bs) := by
  obtain ⟨hs, hz⟩ := h
  constructor
  · unfold memWrite
    rw [List.pairwise_append, List.pairwise_append]
    refine ⟨⟨hs.filter _, listedBytes_sorted bs a, ?_⟩, hs.filter _, ?_⟩
    · intro c hc d hd
      have h1 : c.1 < a := by simpa using (List.mem_filter.1 hc).2
      have := (mem_listedBytes bs a d hd).1
      omega
    · intro c hc d hd
      have h2 : a + bs.length ≤ d.1 := by simpa using (List.mem_filter.1 hd).2
      rcases List.mem_append.1 hc with hc | hc
      · have h1 : c.1 < a := by simpa using (List.mem_filter.1 hc).2
        omega
      · have := (mem_listedBytes bs a c hc).2.1
        omega
  · intro c hc
    unfold memWrite at hc
    rcases List.mem_append.1 hc with hc | hc
    · rcases List.mem_append.1 hc with hc | hc
      · exact hz c (List.mem_filter.1 hc).1
      · exact (mem_listedBytes bs a c hc).2.2
    · exact hz c (List.mem_filter.1 hc).1

/-- A run is read byte by byte. -/
theorem memRange_eq (m : Memory) (a n : Nat) : memRange m a n = (List.range n).map fun i => memRead m (a + i) := by
  unfold memRange
  apply List.map_congr_left
  intro i hi
  have hi : i < n := List.mem_range.1 hi
  have e := memRead_filter m (fun k => decide (a ≤ k ∧ k < a + n)) (a + i)
  rw [if_pos (by simp; omega)] at e
  exact e

@[simp] theorem memRange_length (m : Memory) (a n : Nat) : (memRange m a n).length = n := by simp [memRange]

/-- A run just written reads back whole. -/
theorem memRange_memWrite (m : Memory) (a : Nat) (bs : List Byte) : memRange (memWrite m a bs) a bs.length = bs := by
  rw [memRange_eq]
  apply List.ext_getElem (by simp)
  intro i h1 h2
  have h3 : i < bs.length := h2
  rw [List.getElem_map, List.getElem_range, memRead_memWrite, if_pos (by omega)]
  rw [show a + i - a = i by omega, List.getD_eq_getElem?_getD, List.getElem?_eq_getElem h3]
  rfl

/-- A run that a write does not touch reads as before. -/
theorem memRange_memWrite_disjoint (m : Memory) (a b n : Nat) (bs : List Byte) (h : b + n ≤ a ∨ a + bs.length ≤ b) :
    memRange (memWrite m a bs) b n = memRange m b n := by
  rw [memRange_eq, memRange_eq]
  apply List.map_congr_left
  intro i hi
  have hi : i < n := List.mem_range.1 hi
  rw [memRead_memWrite, if_neg (by omega)]

@[simp] theorem faultedBytes_length (m : Memory) (n a : Nat) (bs : List Byte) :
    (faultedBytes m n a bs).length = bs.length := by simp [faultedBytes]

/-- The memories at reset are in canonical form. -/
theorem reset_delay_wf : Memory.wf State.reset.delay := ⟨List.Pairwise.nil, by intro c h; cases h⟩

theorem reset_pages_wf : Memory.wf State.reset.clips.pages := ⟨List.Pairwise.nil, by intro c h; cases h⟩

end Sys2Proof.Machine
end

