-- ==== Sys2Proof/Tests/Slice0.lean ====
section
/-! SUPPORT. Tests/Slice0.lean: small tests of the model against figures of the spec, the smoke tests of WellFormed, and
for every statement with hypotheses a concrete state and operands that meet them together. -/

namespace Sys2Proof.Tests

open Sys2Proof.Machine

-- One proof after another: each kernel evaluation below would otherwise hold a thread of its own.
set_option Elab.async false

/-! ### Helpers -/

/-- The state a command answers. -/
def after (c : Instr) (s : State) : State :=
  match exec c s with
  | .next t => t
  | .fault _ => s
  | .refused _ => s

/-- A cell of a kind and label with the first payload bytes given. -/
def cellOf (kind : BitVec 3) (label : BitVec 11) (bytes : List Byte) : Cell :=
  { nullCell with kind := kind, label := label, payload := Table.ofList 240 0 bytes }

/-- A DATA cell of label 7 with sequence 9. -/
def dataCell : Cell := { cellOf kindData 7 [1, 2, 3] with seq := 9 }

/-- A part in LOCKED and IDLE at second 1, tick `t`. -/
def live (t : Fin 10000000) : State :=
  { State.reset with
    time := { SiteTime.reset with seconds := 1, ticks := t, state := .locked }
    emitter := { Emitter.reset with state := .idle, reasons := ⟨false, false⟩, phase := ⟨0x01000000, 0⟩ } }

/-- The stamp of second 1, tick 20,000. -/
def soon : Stamp := 0x01004E20

/-- An OPEN slot of block 5 with two cells, feed A filling. -/
def openSlot : Slot := { Slot.free with state := .opened, block := 5, stamp := soon, count := 2, copyA := ⟨.filling, 0⟩ }

/-- A part whose port A fills its copy of block 5. -/
def filling : State :=
  { (live 0).setSlot 5 openSlot with
    portA := { FeedPort.reset with state := .tracking, current := some ⟨5, 5⟩, expected := 2 } }

/-- A TIMING cell of block 5 with two cells at a stamp. -/
def timingCell (stamp : Stamp) : Cell := cellOf kindTiming 0 ([0, 0, 0, 5, 0, 2] ++ be32 stamp ++ [0, 0, 0, 0])

/-- A READY block 5 of 100 cells at the head of the queue, at second 1, tick 0. -/
def readySlot : Slot :=
  { Slot.free with state := .ready, block := 5, stamp := 0x01000000, count := 100, copyA := ⟨.good, 100⟩, dispatched := true }

/-- A part with that block queued, at its stamp. -/
def queued : State :=
  let s := (live 0).setSlot 5 readySlot
  { s with slots := { s.slots with queue := [5] } }

/-- The same part in MUTED. -/
def queuedMuted : State :=
  { queued with emitter := { queued.emitter with state := .muted, reasons := ⟨false, true⟩ } }

/-- A part in BLOCK, whose cell number 1 is a DATA cell of label 7, at the due time of that cell. -/
def onAir : State :=
  let s := (live 992).setSlot 5 { readySlot with state := .emitting }
  { s with
    delay := memWrite [] (delayAddress 5 .A 1) (cellToBytes dataCell)
    emitter := { s.emitter with state := .block, current := some ⟨5, 5, 100, .A, 1⟩ } }

/-- A schedule entry for the window from block 4 to block 8. -/
def entry (st : EntryState) : ScheduleEntry :=
  ⟨77, 4, 8, 0x01000000, [3], Table.fill 4 none, st, none, false, false, 0, 0, 0, none⟩

/-- A queued clip cell of label 8. -/
def clipCell : QueueEntry := ⟨cellOf kindData 8 [4], 0, false, false⟩

/-- `onAir` with label 7 of service 2 in an ACTIVE break and one cell queued. -/
def inBreak : State :=
  (((onAir.setLabel 7 { onAir.label 7 with role := .service, service := 2 }).setSchedule 2 [entry .active]).setChannel 2
    { onAir.channel 2 with state := .serving, queue := [clipCell] })

/-- A LOADING clip 3 of 256 cells at page 0. -/
def loadingClip : ClipEntry := { ClipEntry.empty with state := .loading, cells := 256 }

/-- A part with that clip and its first segment in the load intake. -/
def loading : State :=
  let s := (live 0).setClip 3 loadingClip
  { s with clips := { s.clips with intake := [Table.ofList 240 0 [3, 0, 0, 0, 0, 0, 0, 0, 0xAA]] } }

/-- A read of two cells of a READY clip 3 for channel 2, of the generation given. -/
def reading (g : Word) : State :=
  let s := (live 0).setClip 3 { loadingClip with state := .ready }
  { s with clips := { s.clips with reads := [⟨2, 3, 0, 2, 0, g, false⟩] } }

/-- A CUE cell's payload: service 2, SCHEDULE, break 77, window 4 to 8, at second 1. -/
def cueBytes : Payload := Table.ofList 240 0 [2, 1, 0, 77, 0, 4, 0, 8, 1, 0, 0, 0]

/-- A Break Map entry for that cue. -/
def breakEntry : BreakEntry := ⟨true, 2, 77, [3], Table.fill 4 none⟩

/-- A part that will take that cue. -/
def cued : State :=
  let s := ((live 0).setClip 3 loadingClip).setService 2 { Service.reset with enable := true }
  { s with splice := { s.splice with breakMap := s.splice.breakMap.set 0 breakEntry, intake := [cueBytes] } }

/-- A part whose fallback conditions hold one millisecond before the delay. -/
def fallbackSoon : State :=
  let s := (live 0).setClip 3 { loadingClip with state := .ready }
  { s with emitter := { s.emitter with fallbackEnable := true, fallbackClip := some 3, timer := 1999 } }

/-- A part at tick `t` whose port A awaits the last cell of a one-cell copy of block 5, the check as declared. -/
def lastCell (t : Fin 10000000) (check : Word) : State :=
  { (live t).setSlot 5 { openSlot with count := 1 } with
    portA := { FeedPort.reset with
      state := .tracking, current := some ⟨5, 5⟩, expected := 1, runningCheck := 0, blockCheck := check } }

/-- The check of that copy once `dataCell` is written. -/
def lastCheck : Word := crcFrom 0 (cellToBytes dataCell)

/-- A part in HOLDOVER at tick 0 of second 1, its queue holding block 5 of that stamp. -/
def steppable : State := { queued with time := { queued.time with state := .holdover } }

/-- A runner in a list, with triggers waiting. -/
def runnerBusy (waiting : List (Fin 16)) : ListRunner :=
  { ListRunner.reset with triggers := waiting, state := .running 0 0 1 0 StoredCommand.cleared }

/-- A runner with list 3 defined, of the one slot 255. -/
def runnerReady (waiting : List (Fin 16)) : ListRunner :=
  { ListRunner.reset with triggers := waiting, descriptors := ListRunner.reset.descriptors.set 3 ⟨true, 255, 1⟩ }

/-- A counter that the next pulse takes from 1 to 0. -/
def oneLeft : Counter := { Counter.reset with running := true, value := 1 }

/-! ### WellFormed -/

theorem test_wellFormed_refuses_late_mark :
    WellFormed (.secondMark 9999999 none false) = true ∧ WellFormed (.secondMark 10000000 none false) = false := by
  decide
theorem test_wellFormed_refuses_known_code :
    WellFormed (.unknownCommand .list 16) = true ∧ WellFormed (.unknownCommand .list 15) = false := by decide
theorem test_wellFormed_refuses_long_entry :
    WellFormed (.write .list 1 0 (List.replicate 228 0)) = true ∧
      WellFormed (.write .list 1 0 (List.replicate 229 0)) = false := by decide +kernel
theorem test_wellFormed_refuses_short_label_entry : WellFormed (.writeLabelTable .list 0 [0, 0, 0, 0, 0, 0, 0]) = false := by
  decide
theorem test_wellFormed_refuses_short_service_entry :
    WellFormed (.writeServiceTable .list 0 (List.replicate 23 0)) = false := by decide
theorem test_wellFormed_refuses_short_break_entry :
    WellFormed (.writeBreakMap .list 0 (List.replicate 15 0)) = false := by decide
theorem test_wellFormed_refuses_short_settings_entry :
    WellFormed (.writeSiteSettings .list 0 (List.replicate 39 0)) = false := by decide
theorem test_wellFormed_refuses_short_counter_entry :
    WellFormed (.writeCounters .list 0 (List.replicate 11 0)) = false := by decide
theorem test_wellFormed_refuses_short_descriptor_entry :
    WellFormed (.writeListDescriptors .list 0 [0, 0, 0]) = false := by decide
theorem test_wellFormed_refuses_long_stored_entry :
    WellFormed (.writeListStore .list 0 (List.replicate 229 0)) = false := by decide +kernel
theorem test_no_row_has_bits : decodeTableWord 8 0 = none ∧ decodeTableWord 32 1 = none := by decide

/-! ### Chapter 01: the worked figures -/

/-- R5: "Over the nine ASCII bytes of the digits "123456789" it is 0x0376E6E7." -/
theorem test_check_of_digits :
    crcFrom crcStart [0x31, 0x32, 0x33, 0x34, 0x35, 0x36, 0x37, 0x38, 0x39] = 0x0376E6E7 := by decide +kernel
/-- "Linear values": 37 s + 4,500,000, and the first invalid word. -/
theorem test_linear_values :
    linear (ofLinear 374500000) = 374500000 ∧ stampSeconds (ofLinear 374500000) = 37 ∧
      stampValid 0x00989680 = false ∧ stampValid 0x0098967F = true := by decide +kernel
/-- "Difference across the seconds wrap", and its reverse. -/
theorem test_difference_across_wrap :
    diff (ofLinear 40000200) (ofLinear 2549999900) = 50000300 ∧
      diff (ofLinear 2549999900) (ofLinear 40000200) = -50000300 := by decide +kernel
/-- "The window edge". -/
theorem test_window_edge :
    diff (ofLinear 1280000000) 0 = 1280000000 ∧ diff 0 (ofLinear 1280000000) = 1280000000 ∧
      diff (ofLinear 1280000001) 0 = -1279999999 := by decide +kernel
/-- "Sum across the wrap". -/
theorem test_sum_across_wrap :
    linear (addTicks (ofLinear 2559900000) 250000) = 150000 ∧
      linear (addTicks (ofLinear 150000) (-250000)) = 2559900000 := by decide +kernel
/-- "Precedence across the wrap". -/
theorem test_precedence_across_wrap :
    precedes 65530 10 = true ∧ precedes 10 65530 = false ∧ precedes 100 32868 = false ∧ precedes 32868 100 = false := by
  decide
/-- "A window across the wrap". -/
theorem test_window_across_wrap :
    windowLength 65530 10 = 16 ∧ windowHolds 65530 10 65535 = true ∧ windowHolds 65530 10 10 = false ∧
      windowHolds 65530 10 65529 = false := by decide
/-- "Slots": blocks 65,530, 250 and 506 use slot 250. -/
theorem test_slot_of_block : slotOf 65530 = 250 ∧ slotOf 250 = 250 ∧ slotOf 506 = 250 := by decide

theorem witness_StampDifferenceIsFolded :
    stampValid 0x80000000 = true ∧ stampValid 0 = true ∧ rawDiff 0x80000000 0 = 1280000000 ∧
      rawDiff 0x80000001 0 ≠ 1280000000 ∧ diff 0 State.reset.now < (State.reset.slots.minLead : Int) := by
  decide +kernel
theorem witness_StampSumIsThatFarAway :
    stampValid 0xFF98967F = true ∧ (1280000000 : Int).natAbs < 2560000000 ∧ (-1279999999 : Int) ≤ -1279999999 := by
  decide
theorem witness_LargestReachedCellNumber : 0 < 65536 := by decide
theorem witness_CellImageBytesRoundTrip : (List.replicate 248 (0xFF : Byte)).length = 248 := by decide +kernel

/-! ### The laws -/

theorem mute_reset : MuteLaw State.reset := ⟨by decide, by decide⟩
theorem memory_reset : MemoryLaw State.reset := ⟨⟨List.Pairwise.nil, nofun⟩, ⟨List.Pairwise.nil, nofun⟩⟩
theorem bounds_reset : BoundsLaw State.reset := by constructor <;> decide
theorem queue_reset : QueueLaw State.reset := by constructor <;> decide +kernel
theorem queueRises_reset : State.reset.queueRises ∧ State.reset.queueRisesThroughout := by
  refine ⟨?_, List.Pairwise.nil⟩
  intro k i j h
  simp [State.reset, SlotTable.reset] at h
theorem queue_steppable : MuteLaw steppable ∧ QueueLaw steppable :=
  ⟨⟨by decide, by decide⟩, by constructor <;> decide +kernel⟩
theorem event_reset : EventLaw State.reset := ⟨by decide, by decide⟩
theorem freeSlot_reset : FreeSlotLaw State.reset := by
  intro i _
  exact Table.get_fill Slot.free i

/-- The law of the schedules for a part that has no ACTIVE entry and at most one in each schedule. -/
theorem schedule_single {s : State} (few : ∀ n, (s.schedule n).length ≤ 1)
    (lengths : ∀ n, ∀ e ∈ s.schedule n, e.state ≠ .active ∧
      1 ≤ windowLength e.inBlock e.outBlock ∧ windowLength e.inBlock e.outBlock ≤ 4096) :
    ScheduleLaw s ∧ ∀ n, s.inBlocksRise n := by
  have shape : ∀ n, s.schedule n = [] ∨ ∃ e, s.schedule n = [e] := fun n => by
    have h := few n
    match s.schedule n, h with
    | [], _ => exact .inl rfl
    | [e], _ => exact .inr ⟨e, rfl⟩
    | _ :: _ :: _, h => simp at h
  refine ⟨⟨fun n => Nat.le_trans (few n) (by decide), fun n => ?_, fun n => ?_, fun n => ?_, fun n e h => (lengths n e h).2,
    fun n e h a => absurd a (lengths n e h).1⟩, fun n => ?_⟩ <;>
    obtain h | ⟨e, h⟩ := shape n <;> simp [State.inBlocksRise, h]
theorem schedule_reset : ScheduleLaw State.reset ∧ ∀ n, State.reset.inBlocksRise n :=
  schedule_single (by decide +kernel) (by decide +kernel)
/-- `cued`, the cue at the front, with a break of an earlier window in the schedule. -/
def cuedBehind : State :=
  { cued.setSchedule 2 [{ entry .pending with breakId := 70, inBlock := 1, outBlock := 3 }] with pending := [.cueTaken] }
/-- The cue's entry joins the one there, in in-block order. -/
theorem witness_EveryStepKeepsBounds_order :
    (ScheduleLaw cuedBehind ∧ ∀ n, cuedBehind.inBlocksRise n) ∧
      ∃ t, step cuedBehind = .next t ∧ t.inBlocksNear 2 ∧ (t.schedule 2).map ScheduleEntry.inBlock = [1, 4] :=
  ⟨schedule_single (by decide +kernel) (by decide +kernel), _, rfl, ⟨0, by decide +kernel⟩, by decide +kernel⟩
theorem clip_reset : ClipLaw State.reset := by
  have empty : ∀ k, State.reset.clip k = ClipEntry.empty := fun k => Table.get_fill ClipEntry.empty k
  refine ⟨fun k _ _ h => absurd (by rw [empty k]; rfl) h, fun k => by rw [empty k]; rfl, fun k h => ?_⟩
  rw [empty k] at h
  exact absurd h (by decide)
theorem playout_reset : PlayoutLaw State.reset := by constructor <;> decide

theorem witness_EveryStepKeepsTheMuteLaw : MuteLaw State.reset ∧ ∃ t, step State.reset = .next t := ⟨mute_reset, _, rfl⟩
theorem witness_EveryStepKeepsMemoriesCanonical : MemoryLaw State.reset ∧ ∃ t, step State.reset = .next t :=
  ⟨memory_reset, _, rfl⟩
theorem witness_EveryStepKeepsBounds :
    BoundsLaw State.reset ∧ ScheduleLaw State.reset ∧ ClipLaw State.reset ∧ PlayoutLaw State.reset ∧
      ∃ t, step State.reset = .next t ∧
        ∀ r ∈ t.clips.reads, r ∈ State.reset.clips.reads → State.reset.staleRead r = true → t.staleRead r = true :=
  ⟨bounds_reset, schedule_reset.1, clip_reset, playout_reset, _, rfl, nofun⟩
theorem witness_EveryStepKeepsNewSetWithinMask : EventLaw State.reset ∧ ∃ t, step State.reset = .next t :=
  ⟨event_reset, _, rfl⟩
theorem witness_EveryStepKeepsFreeSlotsEmpty : FreeSlotLaw State.reset ∧ ∃ t, step State.reset = .next t :=
  ⟨freeSlot_reset, _, rfl⟩
/-- A discard in MUTED sends a cell. -/
theorem witness_MutedPartSendsOnlyNullCells :
    step { queuedMuted with pending := [.blockDiscard] } = .next (after .blockDiscard queuedMuted) ∧
      MuteLaw queuedMuted ∧ (after .blockDiscard queuedMuted).muteLine = true ∧
      (after .blockDiscard queuedMuted).out.cells = queuedMuted.out.cells + 1 :=
  ⟨rfl, ⟨by decide, by decide⟩, by decide +kernel, by decide +kernel⟩

/-! ### Feed intake -/

theorem witness_UntakenCellsAreCounted :
    (State.reset.port .A).current = none ∧ cellMalformed { nullCell with kind := 7 } = true ∧
      cellMalformed dataCell = false ∧ dataCell.kind ≠ kindTiming ∧ (filling.port .A).current = some ⟨5, 5⟩ ∧
      filling.reportFits .A ⟨5, 5⟩ = true ∧ ((filling.slot 5).copy .B).state = .empty ∧
      0 ≤ diff soon (filling.slot 5).stamp ∧ diff filling.now (filling.slot 5).stamp < 0 ∧
      (filling.setSlot 5 { openSlot with block := 261 }).reportFits .A ⟨5, 5⟩ = false ∧
      ((filling.setSlot 5 { openSlot with copyB := ⟨.bad, 0⟩ }).slotLost 5 = false) ∧
      (filling.setSlot 5 { openSlot with copyB := ⟨.bad, 0⟩ }).reportFits .A ⟨5, 5⟩ = true := by decide +kernel
set_option maxRecDepth 10000 in
/-- A cell before the last, written or faulting, of a slot that expects it and of one that does not; and a last cell with
another check, with the check before, at and after its stamp, of a slot
already READY, and of a stamp already queued. -/
theorem witness_BlockCellIsWrittenWhole :
    (filling.port .A).current = some ⟨5, 5⟩ ∧ cellMalformed dataCell = false ∧ dataCell.kind ≠ kindTiming ∧
      (filling.port .A).received + 1 < (filling.port .A).expected ∧ (filling.port .A).received < 512 ∧
      (filling.slot 5).state ≠ .free ∧ (filling.slot 5).block = 5 ∧ ((filling.slot 5).copy .A).state = .filling ∧
      filling.reportFits .A ⟨5, 5⟩ = true ∧
      (filling.setSlot 5 { openSlot with block := 261 }).reportFits .A ⟨5, 5⟩ = false ∧
    (let s := lastCell 0 lastCheck
     (s.port .A).received + 1 = (s.port .A).expected ∧
      crcFrom (s.port .A).runningCheck (cellToBytes dataCell) = (s.port .A).blockCheck ∧ (s.slot 5).state = .opened ∧
      ((s.slot 5).copy .A).state = .filling ∧ diff s.now (s.slot 5).stamp < 0 ∧ s.clashes 5 = false ∧
      ({ s with slots := { s.slots with queue := [5] } } : State).clashes 5 = true ∧
      lastCheck ≠ lastCheck + 1 ∧
      diff (lastCell 20000 lastCheck).now ((lastCell 20000 lastCheck).slot 5).stamp = 0 ∧
      ((s.setSlot 5 { openSlot with state := .ready }).slot 5).state ≠ .opened) := by decide +kernel
/-- A port with no copy, with one that its slot expects and one that its slot does not; a foreign network, a bad count, a
bad stamp, a closed gate, an offer of each answer; and a feed that was lost. -/
theorem witness_AcceptedOfferOpensTheSlot :
    ((live 0).port .A).current = none ∧ cellMalformed (timingCell soon) = false ∧ (timingCell soon).kind = kindTiming ∧
      readTiming (timingCell soon).payload = ⟨0, 5, 2, soon, 0⟩ ∧ stampValid soon = true ∧
      (live 0).time.state = .locked ∧ ((live 0).slots.minLead : Int) = diff soon (live 0).now ∧
      ((live 0).slot (slotOf 5)).state = .free ∧
      (filling.port .A).current = some ⟨5, 5⟩ ∧ filling.reportFits .A ⟨5, 5⟩ = true ∧
      (filling.setSlot 5 { openSlot with block := 261 }).reportFits .A ⟨5, 5⟩ = false ∧
      (readTiming (Table.ofList 240 0 [0, 1, 0, 5, 0, 2])).networkId ≠ (live 0).feeds.networkId ∧
      512 < (readTiming (Table.ofList 240 0 [0, 0, 0, 5, 2, 1])).count.toNat ∧
      (readTiming (Table.ofList 240 0 [0, 0, 0, 5, 0, 0])).count.toNat < 1 ∧ stampValid 0x00989680 = false ∧
      State.reset.time.state = .unset ∧ ((live 0).offer .A 5 soon 2).1 = .accept ∧
      ((live 0).offer .A 5 0x01004E1F 2).1 = .late ∧ ((live 0).offer .A 5 0x0D000001 2).1 = .early ∧
      (filling.offer .A 5 soon 2).1 = .duplicate ∧ (filling.offer .A 5 soon 3).1 = .divergence ∧
      (filling.offer .A 261 soon 2).1 = .collision ∧
      ({ live 0 with portA := { FeedPort.reset with state := .lost } } : State).portA.state = .lost := by decide +kernel
/-- A slot of each state but READY; and one that is lost, both its copies BAD, or its stamp reached. -/
theorem witness_OfferIsAnsweredByLeadAndSlot :
    diff 0x01004E1F filling.now < (filling.slots.minLead : Int) ∧
      (filling.slots.maxAhead : Int) < diff 0x0D000001 filling.now ∧
      diff soon filling.now = (filling.slots.minLead : Int) ∧ filling.slotLost (slotOf 5) = false ∧
      (filling.slot (slotOf 5)).block = 5 ∧ (filling.slot (slotOf 261)).block ≠ 261 ∧
      (filling.slot (slotOf 5)).stamp = soon ∧ (filling.slot (slotOf 5)).count = 2 ∧
      (filling.slot (slotOf 5)).state = .opened ∧ ((filling.slot (slotOf 5)).copy .A).state ≠ .empty ∧
      ((filling.slot (slotOf 5)).copy .B).state = .empty ∧
      (let s := filling.setSlot 5 { openSlot with state := .emitting }
       diff soon s.now = (s.slots.minLead : Int) ∧ s.slotLost (slotOf 5) = false ∧
        (s.slot (slotOf 5)).state = .emitting) ∧
      ((live 0).slot (slotOf 5)).state = .free ∧ diff soon (live 0).now = ((live 0).slots.minLead : Int) ∧
      ((filling.setSlot 5 { openSlot with copyA := ⟨.bad, 0⟩, copyB := ⟨.bad, 1⟩ }).slotLost 5 = true) ∧
      ({ live 20000 with slots := filling.slots } : State).slotLost 5 = false ∧
      ((live 20000).setSlot 5 { openSlot with copyA := ⟨.empty, 0⟩ }).slotLost 5 = true ∧
      ((live 19999).setSlot 5 { openSlot with copyA := ⟨.empty, 0⟩ }).slotLost 5 = false ∧
      diff 0x01009C40 (live 20000).now = ((live 20000).slots.minLead : Int) := by decide +kernel
theorem witness_InsertionKeepsStampOrder :
    MuteLaw State.reset ∧ QueueLaw State.reset ∧ State.reset.queueRises ∧ State.reset.pending.head? = none ∧
      (∃ t, step State.reset = .next t) ∧
      MuteLaw steppable ∧ QueueLaw steppable ∧
      ({ steppable with pending := [.secondMark 0 none false] } : State).pending.head? = some (.secondMark 0 none false) ∧
      steppable.queueRisesThroughout :=
  ⟨mute_reset, queue_reset, queueRises_reset.1, rfl, ⟨_, rfl⟩, queue_steppable.1, queue_steppable.2, rfl,
    List.pairwise_singleton _ _⟩
/-- With no copy, with one the slot expects, and with one whose slot holds another block. -/
theorem witness_SilenceExpiryLosesTheFeed :
    let s := { filling with portA := { filling.portA with silence := 1 } }
    (s.port .A).state = .tracking ∧ (s.port .A).silence = 1 ∧ (s.port .A).current = some ⟨5, 5⟩ ∧
      s.reportFits .A ⟨5, 5⟩ = true ∧ (s.setSlot 5 { openSlot with block := 261 }).reportFits .A ⟨5, 5⟩ = false ∧
      ({ s with portA := { s.portA with current := none } } : State).portA.silence = 1 := by decide +kernel

/-- R35: a damaged cell ends the copy and is counted. -/
theorem test_damaged_cell_ends_copy :
    (after (.feedCellArrives .A .damaged false) filling).portA.current = none ∧
      (after (.feedCellArrives .A .damaged false) filling).portA.counts.damaged = 1 := by decide +kernel
/-- R46, R55: an offer in time opens slot 5. -/
theorem test_offer_opens_slot :
    ((after (.feedCellArrives .B (.image (timingCell soon)) false) (live 0)).slot 5).state = .opened ∧
      (after (.feedCellArrives .B (.image (timingCell soon)) false) (live 0)).portB.current = some ⟨5, 5⟩ := by
  decide +kernel
/-- R47: the silence expiry of feed A loses it and latches position 0. -/
theorem test_silence_expiry :
    let t := after (.silenceExpiry .A) { filling with portA := { filling.portA with silence := 1 } }
    t.portA.state = .lost ∧ t.portA.counts.short = 1 ∧ t.engine.latched = 1 := by decide +kernel

/-! ### Site Time -/

theorem bounds_live : BoundsLaw (live 51) ∧ BoundsLaw (live 0) ∧ BoundsLaw (live 9989999) := by
  refine ⟨?_, ?_, ?_⟩ <;> constructor <;> decide
/-- An OPEN slot lost at tick 20,000, a MILLISECOND counter at 2 and at 1, and an alarm reached there. -/
def paced : State :=
  let s := (live 10051).setSlot 5 { openSlot with copyA := ⟨.bad, 0⟩ }
  { s with
    portA := { FeedPort.reset with state := .tracking, silence := 2 }
    portB := { FeedPort.reset with state := .tracking, silence := 200, forestalled := true }
    counters := (s.counters.set 0 { oneLeft with value := 2 }).set 1 oneLeft
    alarms := s.alarms.set 0 { Alarm.reset with armed := true, targetSeconds := 1, targetTicks := 20000 } }
/-- A part at tick `t` of second 1, reached by counting a tick, with port A about to expire and the event still to come. -/
def dueAt (t : Fin 10000000) : State :=
  { live t with eventDue := true, portA := { FeedPort.reset with state := .tracking, silence := 1 } }
/-- Both ports at the expiry, A with a copy of slot 5 the slot expects; and the timer about to stand at the delay. -/
def expiring : State :=
  let s := (live 10051).setSlot 5 openSlot
  { s with
    portA := { FeedPort.reset with state := .tracking, silence := 1, current := some ⟨5, 5⟩, received := 1 }
    portB := { FeedPort.reset with state := .tracking, silence := 1 }
    emitter := { fallbackSoon.emitter with timer := 1999 }
    clips := fallbackSoon.clips }
/-- Past the mark window; before it closes, with no mark seen; in the last millisecond of a second; a lost slot, counters
and an alarm at the tick; expiries, and the fallback timer at the delay with fallback allowed and not. -/
theorem witness_MillisecondEventPacesThePart :
    (let s := { live 9989999 with
      portA := { FeedPort.reset with state := .tracking, silence := 2 }, emitter := { (live 0).emitter with timer := 1998 } }
     (s.time.ticks.val / 10000 + 1) * 10000 < 10000000 ∧ (s.port .A).state = .tracking ∧ 1 < (s.port .A).silence ∧
      (s.port .A).forestalled = false ∧
      (s.port .B).state ≠ .tracking ∧ s.emitter.state = .idle ∧ s.emitter.timer + 1 < s.emitter.fallbackDelay ∧
      s.time.window < s.time.ticks.val) ∧
    ((live 0).time.markSeen = false ∧ (live 0).time.ticks.val ≤ (live 0).time.window) ∧
    (10000000 ≤ ((live 9990000).time.ticks.val / 10000 + 1) * 10000 ∧ (live 9990000).eventDue = false ∧
      (dueAt 0).eventDue = true ∧ (dueAt 0).time.ticks.val = 0 ∧
      (dueAt 20000).time.ticks.val ≠ 0 ∧ ((dueAt 20000).port .A).silence = 1 ∧
      ({ dueAt 20000 with portA := { (dueAt 20000).portA with forestalled := true } } : State).portA.forestalled = true) ∧
    BoundsLaw (dueAt 20000) ∧
    BoundsLaw paced ∧
    ((paced.slot 5).state = .opened ∧ (paced.slot 5).copyA.state = .bad ∧ (paced.slot 5).copyB.state = .empty ∧
      0 ≤ diff 0x01004E20 (paced.slot 5).stamp ∧ diff 0x01004E1F (paced.slot 5).stamp < 0 ∧
      (paced.port .A).silence ≠ 1 ∧ (paced.port .B).forestalled = true ∧ (paced.counters.get 0).value = 2 ∧
      (paced.counters.get 1).value = 1 ∧ (paced.counters.get 1).source = .millisecond ∧
      (paced.alarms.get 0).targetTicks = 20000 ∧ (paced.alarms.get 1).armed = false) ∧
    BoundsLaw expiring ∧
    ((expiring.port .A).silence = 1 ∧ (expiring.port .A).current = some ⟨5, 5⟩ ∧
      expiring.reportFits .A ⟨5, 5⟩ = true ∧ (expiring.port .A).forestalled = false ∧
      expiring.emitter.fallbackDelay ≤ expiring.emitter.timer + 1 ∧ expiring.emitter.state = .idle ∧
      expiring.emitter.fallbackEnable = true ∧ expiring.emitter.fallbackClip = some 3 ∧
      (expiring.clip 3).state = .ready ∧ expiring.time.state = .locked ∧
      expiring.time.window < expiring.time.ticks.val ∧ paced.emitter.fallbackEnable = false) ∧
    underflowsAt .millisecond paced.counters.items 1 ∧
    (∀ n : Fin 4, ¬pushesAt .millisecond expiring.counters.items n) := by
  refine ⟨by decide +kernel, by decide +kernel, by decide, ?_, ?_, by decide +kernel, ?_, by decide +kernel,
    by decide +kernel, ?_⟩
  · constructor <;> decide +kernel
  · constructor <;> decide +kernel
  · constructor <;> decide +kernel
  · have none : ∀ n : Fin 4, ¬underflowsAt .millisecond expiring.counters.items n := by decide +kernel
    exact fun n h => none n h.1
/-- A part at tick `t` of second 1 with one event latched and in the new set, and `k` reports queued. -/
def reported (t : Fin 10000000) (k : Nat) : State :=
  { live t with
    engine := { ({ Engine.reset 0 with mask := 0xFFFFFF } : Engine).latch .overrun with
      reports := List.replicate k ((Engine.reset 0).eventReport 0) } }
theorem laws_reported : BoundsLaw (reported 9990051 16) ∧ EventLaw (reported 9990051 16) :=
  ⟨by constructor <;> decide +kernel, ⟨by decide +kernel, by decide +kernel⟩⟩
/-- `reported` with running counters: 0 of source SECOND at 1, which 1 follows by CASCADE at 1, and 2 of MILLISECOND. -/
def reportedCounting : State :=
  let s := reported 9990051 15
  let bank := (s.counters.set 0 { oneLeft with source := .second }).set 1 { oneLeft with source := .cascade }
  { s with counters := bank.set 2 oneLeft }
/-- In the last millisecond, and before it; in HOLDOVER below the limit and at it; before the mark window closes; with a new
set, empty and not, for a queue with room and a full one; with counters that underflow and push nothing; with a TRACKING
port; and at tick 0 with its events due, with a port at the expiry and one that a TIMING cell has just kept from it. -/
theorem witness_SecondBoundaryCountsTheSecond :
    (BoundsLaw (live 9990051) ∧ (live 9990051).eventDue = false ∧ 9990000 ≤ (live 9990051).time.ticks.val ∧
      (live 51).time.ticks.val < 9990000 ∧ (dueAt 20000).eventDue = true ∧ (dueAt 20000).time.ticks.val ≠ 0) ∧
    BoundsLaw (live 51) ∧ BoundsLaw (live 0) ∧ BoundsLaw (reported 9990051 16) ∧ EventLaw (reported 9990051 16) ∧
    (BoundsLaw reportedCounting ∧ underflowsAt .second reportedCounting.counters.items 0 ∧
      underflowsAt .second reportedCounting.counters.items 1 ∧
      (∀ c ∈ reportedCounting.counters.items, c.action = none) ∧
      underflowsAt .millisecond (bankAfter .second reportedCounting.counters.items) 2 ∧
      1 < paced.portA.silence ∧ paced.portA.state = .tracking ∧ paced.portA.forestalled = false) ∧
    ((∀ n, ((reported 9990051 16).counters.get n).running = false) ∧ (reported 9990051 16).engine.fresh ≠ 0 ∧
      (reported 9990051 15).engine.reports.length < 16 ∧ 16 ≤ (reported 9990051 16).engine.reports.length ∧
      (live 9990051).engine.fresh = 0 ∧ 9990000 ≤ (reported 9990051 16).time.ticks.val ∧
      (reported 9990051 16).eventDue = false) ∧
    (let s := { live 9990051 with time := { (live 9990051).time with state := .holdover, holdover := 298 } }
     s.eventDue = false ∧ s.time.state = .holdover ∧ s.time.holdover + 1 < s.time.holdoverLimit) ∧
    (let s := { live 9990051 with time := { (live 9990051).time with state := .holdover, holdover := 299 } }
     s.time.state = .holdover ∧ s.time.holdoverLimit ≤ s.time.holdover + 1 ∧ s.emitter.state ≠ .muted ∧
      s.emitter.reasons.held = false ∧ s.emitter.reasons.time = s.time.state.mutes) ∧
    ((live 0).time.markSeen = false ∧ (live 0).time.ticks.val ≤ (live 0).time.window ∧ (live 0).eventDue = false ∧
      (live 51).time.ticks.val < 10000000 - (live 51).time.window) ∧
    BoundsLaw (dueAt 0) ∧
    ((dueAt 0).eventDue = true ∧ (dueAt 0).time.ticks.val = 0 ∧ ((dueAt 0).port .A).state = .tracking ∧
      ((dueAt 0).port .A).silence = 1 ∧ ((dueAt 0).port .A).forestalled = false ∧
      ({ dueAt 0 with portA := { (dueAt 0).portA with forestalled := true } } : State).portA.forestalled = true) :=
  ⟨⟨by constructor <;> decide, by decide⟩, bounds_live.1, bounds_live.2.1, laws_reported.1, laws_reported.2,
    ⟨by constructor <;> decide +kernel, by decide +kernel⟩, by decide +kernel, by decide +kernel, by decide +kernel,
    by decide +kernel, by constructor <;> decide +kernel, by decide +kernel⟩
theorem witness_HoldoverExpiryMutes :
    let s := { live 0 with time := { (live 0).time with state := .holdover, holdover := 299 } }
    MuteLaw s ∧ s.time.state = .holdover ∧ s.time.holdoverLimit ≤ s.time.holdover + 1 ∧ s.emitter.state ≠ .muted :=
  ⟨⟨by decide, by decide⟩, by decide, by decide, by decide⟩
/-- The window ahead, its place just past, the miss at W + 1 and the tick before it, and a mark that stood at the place. -/
theorem witness_MarkWindowOpensAndIsMissed :
    BoundsLaw (live 51) ∧ BoundsLaw (live 0) ∧ MuteLaw (live 0) ∧
      (live 9999950).time.ticks.val = 10000000 - (live 9999950).time.window ∧
      (live 51).time.ticks.val < 10000000 - (live 51).time.window ∧ (live 51).time.window < (live 51).time.ticks.val ∧
      (BoundsLaw (live 9990051) ∧ BoundsLaw (dueAt 0) ∧ (live 9990051).eventDue = false ∧
        (live 9990051).time.ticks.val < 10000000 - (live 9990051).time.window ∧ (dueAt 0).eventDue = true ∧
        (dueAt 0).time.markSeen = false ∧ (dueAt 0).time.ticks.val ≤ (dueAt 0).time.window ∧
        ∃ u, exec .millisecondEvent (dueAt 0) = .next u) ∧
      (live 50).time.ticks.val ≤ (live 50).time.window ∧ (live 0).time.markSeen = false ∧
      (live 0).time.state = .locked ∧ (live 0).time.missedRun = 0 ∧
      (∃ u, exec .markWindowOpen (live 51) = .next u) ∧ (∃ u, exec .missedMark (live 0) = .next u) ∧
      (live 0).openingTaken = false ∧ (live 0).noteOpening.openingTaken = false ∧
      (live 9999950).noteOpening.openingTaken = true ∧
      ({ live 0 with openingTaken := true } : State).time.ticks.val = 0 :=
  ⟨bounds_live.1, bounds_live.2.1, ⟨by decide, by decide⟩, by decide, by decide, by decide,
    ⟨by constructor <;> decide, by constructor <;> decide, by decide, by decide, by decide, by decide, by decide, _, rfl⟩,
    by decide, by decide, by decide, by decide, ⟨_, rfl⟩, ⟨_, rfl⟩, by decide, by decide, by decide, by decide⟩
/-- LOCKED at the second miss, ACQUIRING, and a state that a miss leaves as it is; a mark at each of the two places. -/
theorem witness_MarkWindowOpensAndIsMissed_states :
    (let s := { live 50 with time := { (live 50).time with missedRun := 1 } }
     s.time.state = .locked ∧ 1 ≤ s.time.missedRun ∧ s.time.ticks.val ≤ s.time.window ∧ s.time.markSeen = false) ∧
    (let s := { State.reset with time := { SiteTime.reset with state := .acquiring } }
     s.time.state = .acquiring ∧ s.time.ticks.val ≤ s.time.window) ∧
    (State.reset.time.state ≠ .acquiring ∧ State.reset.time.state ≠ .locked ∧ State.reset.time.markSeen = false) ∧
    (∃ u, exec (.secondMark (10000000 - (live 51).time.window) none false) (live 51) = .next u) ∧
    (∃ u, exec (.secondMark ((live 51).time.window + 1) none false) (live 51) = .next u) ∧
    (live 51).time.ticks.val ≤ (live 51).time.window + 1 :=
  ⟨by decide, by decide, by decide, ⟨_, rfl⟩, ⟨_, rfl⟩, by decide⟩
/-- A mark beyond a multiple, one after a tick whose event is due, one past a missed mark, and one within the millisecond. -/
theorem witness_FirstMarkSetsTheClock_ahead :
    BoundsLaw (live 51) ∧ BoundsLaw (dueAt 20000) ∧ BoundsLaw (live 0) ∧
      ((live 51).time.ticks.val / 10000 + 1) * 10000 < 25000 ∧ (live 51).time.ticks.val < 10000 ∧
      (live 51).eventDue = false ∧ (live 51).time.window < (live 51).time.ticks.val ∧
      (dueAt 20000).eventDue = true ∧ (dueAt 20000).time.ticks.val < 20001 ∧
      (live 0).time.markSeen = false ∧ (live 0).time.ticks.val ≤ (live 0).time.window ∧ (live 0).time.window < 60 ∧
      (∃ u, exec .millisecondEvent (live 51) = .next u) ∧ ∃ u, exec .missedMark (live 0) = .next u :=
  ⟨bounds_live.1, by constructor <;> decide, bounds_live.2.1, by decide, by decide, by decide, by decide, by decide,
    by decide, by decide, by decide, by decide, ⟨_, rfl⟩, _, rfl⟩
/-- An UNSET clock, with marks at the present tick, ahead and past the second's end, and the window opened on the way; and
with an event due, a counter at its last second and a new set to report. -/
theorem witness_FirstMarkSetsTheClock :
    (let s : State := { State.reset with
      eventDue := true, counters := State.reset.counters.set 0 { oneLeft with source := .second }
      engine := { Engine.reset 0 with latched := 1, fresh := 1 } }
     MuteLaw s ∧ s.time.state = .unset ∧ s.slots.queue = [] ∧ s.eventDue = true ∧ State.reset.eventDue = false ∧
      underflowsAt .second s.counters.items 0 ∧ (∀ c ∈ s.counters.items, c.action = none) ∧ s.engine.fresh ≠ 0) ∧
    MuteLaw State.reset ∧ BoundsLaw State.reset ∧ State.reset.time.state = .unset ∧ State.reset.slots.queue = [] ∧
      State.reset.time.ticks.val < 9999950 ∧ 10000000 - State.reset.time.window ≤ 9999950 :=
  ⟨⟨⟨by decide, by decide⟩, by decide +kernel⟩, mute_reset, by constructor <;> decide, by decide, by decide, by decide,
    by decide⟩
/-- A part at tick `t` of second 1 in a time state, with the source given. -/
def timed (t : Fin 10000000) (state : TimeState) (source : TickSource) : State :=
  { live t with time := { (live t).time with state := state, source := source, holdover := 7 } }
/-- Good marks back and forward in each state, with the source REFERENCE and LOCAL, and with the limit reached; outliers
in LOCKED and HOLDOVER. -/
theorem witness_MarksLockAndOutliersAreCounted :
    ((dueAt 20).eventDue = true ∧ (dueAt 20).time.goodMark none = true ∧ (dueAt 20).time.ticks.val ≠ 0 ∧
      (let s := { dueAt 20000 with time := { (dueAt 20000).time with outlierRun := 2 } }
       s.eventDue = true ∧ s.time.goodMark none = false ∧ s.time.state ≠ .unset ∧ 2 ≤ s.time.outlierRun) ∧
      (∃ u, exec .millisecondEvent (dueAt 20) = .next u) ∧ steppable.eventDue = false ∧
      (dueAt 0).time.goodMark none = true ∧ (dueAt 0).time.ticks.val = 0 ∧
      (let s := { live 9999950 with slots := queued.slots }
       s.time.goodMark none = true ∧ s.slots.queue.head? = some 5 ∧ 0 ≤ diff 0x02000000 (s.slot 5).stamp) ∧
      (let s := { live 20 with alarms := Table.fill 4 { Alarm.reset with armed := true, targetSeconds := 1 } }
       s.time.goodMark none = true ∧ (s.alarms.get 0).armed = true ∧ (s.alarms.get 0).list = none)) ∧
    (let s := { live 51 with time := { (live 51).time with outlierRun := 1 } }
     s.time.state = .locked ∧ s.time.outlierRun < 2 ∧ s.time.goodMark none = false) ∧
    (let s := { State.reset with time := { SiteTime.reset with state := .acquiring, goodRun := 2, ticks := 50 } }
     MuteLaw s ∧ s.time.state = .acquiring ∧ s.time.goodRun = 2 ∧ s.time.source = .reference ∧
      s.time.goodMark none = true ∧ s.emitter.reasons.operator = false) ∧
    MuteLaw steppable ∧ QueueLaw steppable ∧ steppable.time.goodMark (some 2) = false ∧
      steppable.time.state = .holdover ∧ 0 ≤ diff 0x02000000 (steppable.slot 5).stamp ∧
      diff 0 (steppable.slot 5).stamp < 0 ∧ MuteLaw (live 50) ∧
    ((live 50).time.goodMark none = true ∧ (live 9999950).time.goodMark (some 2) = true ∧
      (timed 50 .acquiring .localOsc).time.goodMark none = true ∧ (timed 50 .acquiring .reference).time.goodRun < 2 ∧
      (timed 9999950 .holdover .localOsc).time.goodMark none = true ∧
      (timed 50 .holdover .reference).time.holdover < (timed 50 .holdover .reference).time.holdoverLimit ∧
      (timed 50 .freeRun .localOsc).time.goodMark none = true ∧ (live 50).slots.queue = [] ∧
      (let s := timed 9999950 .holdover .reference
       s.time.goodMark none = true ∧
        ({ s with time := { s.time with holdover := 299 } } : State).time.holdoverLimit ≤ 299 + 1)) :=
  ⟨⟨by decide, by decide, by decide, by decide, ⟨_, rfl⟩, by decide, by decide, by decide, by decide +kernel,
      by decide⟩,
    ⟨by decide, by decide, by decide⟩, ⟨⟨by decide, by decide⟩, by decide, by decide, by decide, by decide, by decide⟩,
    queue_steppable.1, queue_steppable.2, by decide, by decide, by decide +kernel, by decide +kernel,
    ⟨by decide, by decide⟩, by decide +kernel⟩
theorem witness_ReferenceEdgesStopAndResume :
    MuteLaw (live 0) ∧ (live 0).time.source = .reference ∧ (live 0).time.state = .locked :=
  ⟨⟨by decide, by decide⟩, by decide, by decide⟩

set_option maxRecDepth 10000 in
/-- R25, R26: the first mark sets second 7 and enters ACQUIRING. -/
theorem test_first_mark :
    let t := (after (.secondMark 123 (some 7) false) State.reset).time
    t.seconds = 7 ∧ t.ticks = 0 ∧ t.state = .acquiring ∧ t.goodRun = 1 := by decide +kernel
/-- R18, R87: a millisecond event counts the fallback timer. -/
theorem test_millisecond_counts_timer :
    (after .millisecondEvent (live 5)).time.ticks = 10000 ∧ (after .millisecondEvent (live 5)).emitter.timer = 1 := by
  decide +kernel
set_option maxRecDepth 10000 in
/-- R48: at the tick of the expiry, a TIMING cell taken before the event leaves the value at the latch; taken after it, the
feed is back with the value at the latch too. -/
theorem test_timing_cell_at_the_expiry :
    let s := dueAt 20000
    let cell := Instr.feedCellArrives .A (.image (timingCell soon)) false
    (after .millisecondEvent (after cell s)).portA.state = .tracking ∧
      (after .millisecondEvent (after cell s)).portA.silence = 200 ∧
      (after .millisecondEvent (after cell s)).time.ticks = 20000 ∧
      (after .millisecondEvent (after cell s)).engine.latched.getLsbD 0 = false ∧
      (after cell (after .millisecondEvent s)).portA.silence = 200 ∧
      (after cell (after .millisecondEvent s)).engine.latched.getLsbD 0 = true := by decide +kernel
set_option maxRecDepth 10000 in
/-- R47: a TIMING cell of an earlier tick is lowered by the next event, also where the value was 1 when it came. -/
theorem test_timing_cell_before_another_moment :
    let s := { live 50 with portA := { FeedPort.reset with state := .tracking, silence := 2 } }
    let cell := Instr.feedCellArrives .A (.image (timingCell soon)) false
    let t := after cell (after .millisecondEvent s)
    (after .millisecondEvent s).portA.silence = 1 ∧ (after .millisecondEvent t).portA.silence = 199 ∧
      (after .millisecondEvent (after (.secondMark 19000 none false) t)).portA.silence = 199 := by decide +kernel
set_option maxRecDepth 10000 in
/-- R17, R18: the part's own clock stands at the multiple, or at tick 0, before it raises the event of that tick. -/
theorem test_own_clock_leaves_the_event_due :
    let s := fun (t : Fin 10000000) => (live t).movePhase (live t).now 0
    (s 9999).idle.time.ticks = 10000 ∧ (s 9999).idle.pending = [] ∧
      (s 9999).idle.idle.pending = [.millisecondEvent] ∧ (s 9999999).idle.time.seconds = 2 ∧
      (s 9999999).idle.time.ticks = 0 ∧ (s 9999999).idle.pending = [] ∧
      (s 9999999).idle.idle.pending = [.secondBoundary] ∧
      (after .secondBoundary (s 9999999).idle).time.seconds = 2 := by decide +kernel
/-- R10, R23: the window opens, and a mark is missed, at another tick than the TIMING cell a port took before. -/
theorem test_mark_window_drops_the_note :
    let s := fun (t : Fin 10000000) =>
      ({ live t with portA := { FeedPort.reset with state := .tracking, silence := 1, forestalled := true } } : State)
    (after .markWindowOpen (s 9990051)).time.ticks = 9999950 ∧ (after .markWindowOpen (s 9990051)).portA.forestalled = false ∧
      (after .missedMark (s 50)).time.ticks = 51 ∧ (after .missedMark (s 50)).portA.forestalled = false ∧
      (after .missedMark (s 50)).time.missedRun = 1 := by decide +kernel
set_option maxRecDepth 10000 in
/-- R17, R18: a second boundary, with the multiples still to come in the second that ends. -/
theorem test_second_boundary :
    let s := { live 9970005 with emitter := { (live 0).emitter with timer := 10 } }
    (after .secondBoundary s).time.seconds = 2 ∧ (after .secondBoundary s).time.ticks = 0 ∧
      (after .secondBoundary s).emitter.timer = 13 := by decide +kernel
set_option maxRecDepth 10000 in
/-- R17, R18: a row that counts past a multiple issues its event; and the events due at tick 0, or at another multiple, are
issued before a row counts on from there or a mark moves the clock. -/
theorem test_rows_issue_the_events_they_pass :
    let due0 := { dueAt 0 with time := { (dueAt 0).time with state := .holdover } }
    (after (.secondMark 25000 none false) (live 5)).emitter.timer = 2 ∧
      (after .missedMark due0).time.holdover = 1 ∧ (after .missedMark due0).time.ticks = 51 ∧
      (after (.secondMark 20000 (some 9) false)
        { dueAt 20000 with time := { (dueAt 0).time with ticks := 20000, outlierRun := 2 } }).time.seconds = 9 ∧
      (after (.secondMark 20000 (some 9) false)
        { dueAt 20000 with
          portA := { FeedPort.reset with state := .tracking, silence := 5 }
          time := { (dueAt 0).time with ticks := 20000, outlierRun := 2 } }).portA.silence = 3 := by decide +kernel
/-- R28: the second missed mark in LOCKED gives HOLDOVER. -/
theorem test_second_missed_mark :
    (after .missedMark { live 5 with time := { (live 5).time with missedRun := 1 } }).time.state = .holdover ∧
      (after .missedMark (live 5)).time.state = .locked := by decide +kernel
set_option maxRecDepth 10000 in
/-- R23: a mark at 10,000,000 − W leaves mark seen set and the clock at tick 0, whichever of the mark and the window is
taken first. -/
theorem test_mark_at_window_open :
    (after (.secondMark 9999950 none false) (live 9990051)).time.markSeen = true ∧
      (after (.secondMark 9999950 none false) (after .markWindowOpen (live 9990051))).time.markSeen = true ∧
      (after .markWindowOpen (after (.secondMark 9999950 none false) (live 9990051))).time.markSeen = true ∧
      (after .markWindowOpen (after (.secondMark 9999950 none false) (live 9990051))).time.ticks = 0 := by decide +kernel
set_option maxRecDepth 10000 in
/-- R32: a step back discards every queued block that reads as reached. -/
theorem test_step_discards :
    (after (.secondMark 0 (some 2) false) steppable).slots.queue = [] ∧
      (after (.secondMark 0 (some 2) false) steppable).emitter.counts.muteDrops = 1 := by decide +kernel

/-! ### The Emitter -/

/-- In IDLE; and in BLOCK, at the end of a block of one cell, within one of 100, and for a label whose role is DROP. -/
theorem witness_CellTimeSendsNullCellOffAir :
    (live 992).emitter.state = .idle ∧ (live 992).cellDue = true ∧ (live 992).headReached = false ∧
      (live 991).cellDue = false ∧
      onAir.emitter.state = .block ∧ onAir.emitter.current = some ⟨5, 5, 100, .A, 1⟩ ∧ onAir.cellDue = true ∧
      onAir.headReached = false ∧ onAir.newCellNumber = 1 ∧
      (let s := onAir.setLabel 7 { onAir.label 7 with role := .drop }
       (s.label (s.delayCell 5 .A s.newCellNumber).label).role = .drop) ∧
      cellIsData ({ onAir with delay := [] }.delayCell 5 .A 1) = false := by decide +kernel
/-- A part in FALLBACK at a cell time, with Playout Queue 8 given. -/
def inFallback (q : List QueueEntry) : State :=
  let s := (live 992).setChannel 8 { (live 992).channel 8 with state := .priming, queue := q }
  { s with emitter := { s.emitter with state := .fallback } }
theorem witness_PassedCellKeepsItsSequence :
    onAir.emitter.state = .block ∧ onAir.emitter.current = some ⟨5, 5, 100, .A, 1⟩ ∧ onAir.cellDue = true ∧
      onAir.headReached = false ∧ onAir.newCellNumber = onAir.emitter.phase.cell + 1 ∧ onAir.newCellNumber < 100 ∧
      onAir.newCellNumber < 512 ∧ onAir.delayCell 5 .A onAir.newCellNumber = dataCell ∧ cellIsData dataCell = true ∧
      (onAir.label dataCell.label).role = .pass := by decide +kernel
/-- In FALLBACK; and in BLOCK a DATA cell at the head; a null entry; an empty queue; a faulted break; a cancelled break; a
block outside it. -/
theorem witness_SubstitutedSlotCarriesTheQueuedCell :
    ((inFallback []).emitter.state = .fallback ∧ (inFallback []).cellDue = true ∧ (inFallback []).headReached = false ∧
      ((inFallback []).channel 8).queue = [] ∧ ((inFallback [clipCell]).channel 8).queue = [clipCell]) ∧
    inBreak.emitter.state = .block ∧ inBreak.emitter.current = some ⟨5, 5, 100, .A, 1⟩ ∧ inBreak.cellDue = true ∧
      inBreak.headReached = false ∧ inBreak.newCellNumber = inBreak.emitter.phase.cell + 1 ∧
      inBreak.newCellNumber < 100 ∧ inBreak.newCellNumber < 512 ∧
      inBreak.delayCell 5 .A inBreak.newCellNumber = dataCell ∧ cellIsData dataCell = true ∧
      (inBreak.label dataCell.label).role = .service ∧ (inBreak.label dataCell.label).service.toNat = (2 : Fin 8).val ∧
      inBreak.schedule 2 = [entry .active] ∧ (entry .active).state = .active ∧
      windowHolds (entry .active).inBlock (entry .active).outBlock 5 = true ∧ (entry .active).cancelRequested = false ∧
      (entry .active).faulted = false ∧ (inBreak.channel (serviceChannel 2)).queue = [clipCell] ∧
      cellIsData clipCell.cell = true ∧ cellIsData nullCell = false ∧
      (inBreak.setChannel 2 { inBreak.channel 2 with queue := [] }).schedule 2 = [entry .active] ∧
      ({ entry .active with faulted := true } : ScheduleEntry).state = .active ∧
      ({ entry .active with cancelRequested := true } : ScheduleEntry).state = .active ∧
      windowHolds (entry .active).inBlock (entry .active).outBlock 8 = false := by decide +kernel
/-- A channel in the middle of clip 3, with a queue, a refill mark of 2 and a depth of 64. -/
def midClip (q : List QueueEntry) : Channel :=
  { Channel.reset 64 with state := .serving, queue := q, refill := 2, clips := [3], cellIndex := 250 }
/-- `inBreak` on that channel, clip 3 READY with 256 cells. -/
def midBreak (q : List QueueEntry) : State := (inBreak.setChannel 2 (midClip q)).setClip 3 { loadingClip with state := .ready }
/-- R122: a channel with a queue at the refill mark and above it; the six cells of the clip still to come. -/
theorem witness_FetchTested :
    (midClip [clipCell, clipCell]).fetches ∧ ¬(midClip [clipCell, clipCell, clipCell]).fetches ∧
      (midClip []).clips[(midClip []).listIndex]? = some 3 ∧
      0 < min 32 (min (((midBreak []).clip 3).cells - (midClip []).cellIndex) ((midClip []).depth - 2)) ∧
      ¬({ midClip [] with inFlight := true } : Channel).fetches ∧ ¬({ midClip [] with exhausted := true } : Channel).fetches := by
  refine ⟨?_, ?_, ?_, ?_, ?_, ?_⟩ <;> (try unfold Channel.fetches) <;> decide +kernel
/-- Block 5 at the head with a FILLING copy B, at tick `t`, feed B active. -/
def startable (t : Fin 10000000) (state : EmitterState) : State :=
  let s := (live t).setSlot 5 { readySlot with copyB := ⟨.filling, 3⟩ }
  { s with
    slots := { s.slots with queue := [5] }
    emitter := { s.emitter with state := state, activeFeed := some .B, fallbackMap := Table.fill 4 (some 9) } }
/-- The same at tick 0, with block 6 on air of the cell count given. -/
def cutIn (count : Nat) : State :=
  let s := (startable 0 .block).setSlot 6 { readySlot with state := .emitting, block := 6, count := count }
  { s with emitter := { s.emitter with current := some ⟨6, 6, count, .B, 1⟩ } }
/-- Blocks 4 and 5 at the head, their stamps 1,000 ticks apart, at tick `t`. -/
def twoReached (t : Fin 10000000) : State :=
  let s := (startable t .idle).setSlot 4 { readySlot with block := 4, stamp := 0x010003E8 }
  { s with slots := { s.slots with queue := [5, 4] } }
/-- The law of the Emission Queue speaks of the Slot Table, the current block and whether the state is BLOCK. -/
theorem queue_alike {s t : State} (h : QueueLaw s) (slots : t.slots = s.slots)
    (current : t.emitter.current = s.emitter.current)
    (block : t.emitter.state = .block ↔ s.emitter.state = .block) : QueueLaw t := by
  have at' : ∀ i, t.slot i = s.slot i := fun i => by rw [State.slot, slots]; rfl
  constructor
  · rw [slots]; exact h.once
  · simp only [slots, at']; exact h.ready
  · simp only [slots, at']; exact h.stamps_differ
  · simp only [at']; exact h.stamps_valid
  · rw [block, current]; exact h.block_iff
  · simp only [current, at']; exact h.current_emitting
  · simp only [current, at']; exact h.emitting_current
theorem queue_startable_idle : QueueLaw (startable 0 .idle) := by constructor <;> decide +kernel
theorem queue_startable_fallback : QueueLaw (startable 0 .fallback) :=
  queue_alike queue_startable_idle rfl rfl (by decide)
theorem queue_cutIn : QueueLaw (cutIn 9) := by constructor <;> decide +kernel
theorem queue_twoReached : QueueLaw (twoReached 50000) := by constructor <;> decide +kernel
theorem queue_twoPassed : QueueLaw (twoReached 500000) := queue_alike queue_twoReached rfl rfl (by decide)
/-- From IDLE, FALLBACK and BLOCK; after a skip, at its cell 49; past its last cell; with a BLOCK counter at 1 and without a
list pushed. -/
theorem witness_BlockStartsAtItsStamp :
    QueueLaw (startable 0 .idle) ∧ QueueLaw (startable 0 .fallback) ∧ QueueLaw (cutIn 9) ∧
      QueueLaw (twoReached 50000) ∧ QueueLaw (twoReached 500000) ∧
    ((startable 0 .idle).slots.queue = [] ++ 5 :: [] ∧ diff (startable 0 .idle).now ((startable 0 .idle).slot 5).stamp = 0 ∧
      dueOffset 65011712 0 = 0 ∧ dueOffset 65011712 1 = 992 ∧ 0 < ((startable 0 .idle).slot 5).count ∧
      ((startable 0 .idle).slot 5).copyB.state = .filling ∧
      (startable 0 .idle).emitter.pendingPeriod.getD (startable 0 .idle).emitter.period = 65011712 ∧
      (startable 0 .idle).emitter.activeFeed = some (otherFeed .A) ∧ (startable 0 .fallback).emitter.state ≠ .muted ∧
      9 - ((cutIn 9).emitter.phase.cell + 1) = 8 ∧
      (cutIn 9).emitter.current = some ⟨6, 6, 9, .B, 1⟩ ∧ (cutIn 9).slots.queue = [5] ∧
      (twoReached 50000).slots.queue = [5] ++ 4 :: [] ∧
      0 ≤ diff (twoReached 50000).now ((twoReached 50000).slot 5).stamp ∧
      diff (twoReached 50000).now ((twoReached 50000).slot 4).stamp = 49000 ∧ dueOffset 65011712 49 ≤ 49000 ∧
      49000 < dueOffset 65011712 50 ∧ 49 < ((twoReached 50000).slot 4).count ∧
      diff (twoReached 500000).now ((twoReached 500000).slot 4).stamp = 499000 ∧ dueOffset 65011712 503 ≤ 499000 ∧
      499000 < dueOffset 65011712 504 ∧ ((twoReached 500000).slot 4).count ≤ 503 ∧
      underflowsAt .block [{ oneLeft with source := .block }] 0 ∧
      (∀ c ∈ (twoReached 50000).counters.items, c.running = false)) :=
  ⟨queue_startable_idle, queue_startable_fallback, queue_cutIn, queue_twoReached, queue_twoPassed, by decide +kernel⟩
theorem witness_MutedBlockIsDiscarded :
    queuedMuted.emitter.state = .muted ∧ queuedMuted.slots.queue = [5] ∧
      diff queuedMuted.now (queuedMuted.slot 5).stamp = 0 ∧
      underflowsAt .block [{ oneLeft with source := .block }] 0 ∧
      (∀ c ∈ queuedMuted.counters.items, c.running = false) := by decide +kernel
/-- The expiry with the conditions and without, and FALLBACK_ENTRY with the delay passed; the timer one short of each; and
a part outside IDLE. -/
theorem witness_FallbackBeginsWhenAllowed :
    fallbackSoon.emitter.state = .idle ∧ fallbackSoon.emitter.fallbackDelay ≤ fallbackSoon.emitter.timer + 1 ∧
      fallbackSoon.emitter.timer < fallbackSoon.emitter.fallbackDelay ∧
      fallbackSoon.emitter.fallbackEnable = true ∧ fallbackSoon.emitter.fallbackClip = some 3 ∧
      (fallbackSoon.clip 3).state = .ready ∧ fallbackSoon.time.state = .locked ∧
      (let s := { fallbackSoon with emitter := { fallbackSoon.emitter with timer := 2000 } }
       s.emitter.fallbackDelay ≤ s.emitter.timer ∧ s.emitter.state = .idle) ∧
      (1998 : Nat) + 1 < fallbackSoon.emitter.fallbackDelay ∧ queuedMuted.emitter.state ≠ .idle ∧
      ({ live 0 with emitter := { (live 0).emitter with timer := 1999 } } : State).emitter.fallbackEnable = false := by
  decide +kernel

/-- R84: the passed cell keeps sequence 9. -/
theorem test_passed_cell :
    (after (.cellTime false) onAir).out.cell.map Cell.seq = some 9 ∧
      (after (.cellTime false) onAir).out.cell.map Cell.label = some 7 := by decide +kernel
/-- R85, R151: the substituted slot carries the clip cell of label 8, with sequence 0. R122: the take that brings the queue to
the refill mark asks for the six cells of the clip still to come. -/
theorem test_substituted_cell :
    (after (.cellTime false) inBreak).out.cell = some (cellOf kindData 8 [4]) ∧
      ((after (.cellTime false) inBreak).schedule 2).map ScheduleEntry.cellsFromClips = [1] ∧
      (after (.cellTime false) (midBreak [clipCell, clipCell, clipCell])).clips.reads = [⟨2, 3, 250, 6, 0, 0, false⟩] ∧
      (after (.cellTime false) (midBreak [clipCell, clipCell, clipCell, clipCell])).clips.reads = [] := by decide +kernel
/-- R73: the block starts, and its cell 0 (zeros, not a DATA cell) leaves as a null cell. -/
theorem test_block_start :
    (after (.blockStart false) queued).emitter.state = .block ∧
      (after (.blockStart false) queued).out.cell = some nullCell ∧
      (after (.blockStart false) queued).emitter.activeFeed = some .A := by decide +kernel
set_option maxRecDepth 10000 in
/-- R73, R81: the first cell of a block that starts, where it can be read, leaves; a read that faults gives a null cell. -/
theorem test_first_cell :
    let s := { queued with delay := memWrite [] (delayAddress 5 .A 0) (cellToBytes dataCell) }
    (after (.blockStart false) s).out.cell = some dataCell ∧ (after (.blockStart true) s).out.cell = some nullCell := by
  decide +kernel
/-- R79: in MUTED it is discarded. -/
theorem test_block_discard :
    (after .blockDiscard queuedMuted).emitter.counts.muteDrops = 1 ∧
      (after .blockDiscard queuedMuted).slot 5 = Slot.free := by decide +kernel
/-- R146, R147: the notice of block 5 primes an ARMING break whose clips are READY, and makes it ACTIVE; one whose clip is
LOADING is missed, with a record. -/
theorem test_notice_of_a_break :
    let s := fun (st : ClipState) =>
      (queuedMuted.setClip 3 { loadingClip with state := st }).setSchedule 2 [entry .arming]
    ((after .blockDiscard (s .ready)).schedule 2).map ScheduleEntry.state = [.active] ∧
      ((after .blockDiscard (s .ready)).channel 2).state = .priming ∧
      (after .blockDiscard (s .loading)).splice.asRun.map AsRunRecord.reason = [.clipNotReady] := by decide +kernel
/-- R89: a new pass of the fallback clip sets the discontinuity flag. -/
theorem test_fallback_cell :
    (after (.cellTime false) (inFallback [{ clipCell with passMark := true }])).out.cell =
      some { cellOf kindData 8 [4] with disc := true } := by decide +kernel
/-- R88: fallback begins at the expiry, and its first fetch asks for 32 cells. -/
theorem test_fallback :
    (after .fallbackTimerExpiry fallbackSoon).emitter.state = .fallback ∧
      (after .fallbackTimerExpiry fallbackSoon).clips.reads.map FetchRead.count = [32] := by decide +kernel

/-! ### Clip Store and Playout Queues -/

/-- An expected segment, not the last and the last, its check declared and not; a repeat and a gap; a READY entry; an
unknown clip; the record frozen and not. -/
theorem witness_ExpectedSegmentIsWritten :
    (let p : Payload := Table.ofList 240 0 [3, 0, 0, 0, 0, 0, 0, 0, 0xAA]
     loading.clips.intake = [p] ∧ (loading.clip 3).state = .loading ∧ (loadClip p).toNat = (3 : Fin 128).val ∧
      loadSegment p = (loading.clip 3).nextSegment ∧ (loading.clip 3).nextSegment + 1 ≠ (256 * 248 + 231) / 232 ∧
      (loading.clip 3).basePage * 63488 + 232 ≤ 260046848 ∧ loading.clips.record.frozen = false ∧
      (let e := { loadingClip with nextSegment := 273 }
       e.nextSegment + 1 = (e.cells * 248 + 231) / 232 ∧ loadSegment p < e.nextSegment) ∧
      loadSegment (Table.ofList 240 0 [(3 : Byte), 0, 1, 17]) = 273 ∧
      loadSegment (Table.ofList 240 0 [(3 : Byte), 0, 0, 1]) = 1) ∧
    128 ≤ (loadClip (Table.ofList 240 0 [(128 : Byte)])).toNat ∧ ((live 0).clip 3).state ≠ .loading := by decide +kernel
/-- A current read that faults under an ARMED and an ACTIVE head of its generation, under none, and on channel 8. -/
theorem witness_ReadEndsByItsGeneration_fault :
    let e : EntryState → ScheduleEntry := fun st => { entry st with primeGeneration := some 0 }
    (reading 0).clips.reads[0]? = some ⟨2, 3, 0, 2, 0, 0, false⟩ ∧ ((reading 0).channel 2).generation = 0 ∧
      (2 : Fin 9) = serviceChannel 2 ∧ (reading 0).schedule 2 = [] ∧ (reading 0).clips.record.frozen = false ∧
      ((reading 0).setSchedule 2 [e .armed]).schedule 2 = [e .armed] ∧ (e .armed).primeGeneration = some 0 ∧
      (e .armed).state = .armed ∧ ((reading 0).setSchedule 2 [e .active]).schedule 2 = [e .active] ∧
      (e .active).state = .active ∧ (inFallback []).emitter.state = .fallback ∧
      ((inFallback []).channel 8).generation = 0 := by decide +kernel
/-- Reads of the current generation and of an old one; a read that ends a clip, on a service channel with a next clip, at
the end of its list, and on channel 8. -/
theorem witness_ReadEndsByItsGeneration :
    (reading 0).clips.reads[0]? = some ⟨2, 3, 0, 2, 0, 0, false⟩ ∧ ((reading 0).channel 2).generation = 0 ∧
      (reading 1).clips.reads[0]? = some ⟨2, 3, 0, 2, 0, 1, false⟩ ∧ ((reading 1).channel 2).generation ≠ 1 ∧
      outsideStore 0 (0 * 248) (2 * 248) = false ∧ ((reading 0).clip 3).state ≠ .empty ∧
      (reading 1).clips.record.frozen = false ∧ ((reading 0).channel 2).cellIndex + 2 ≠ ((reading 0).clip 3).cells ∧
    (let c : Channel := { (reading 0).channel 2 with cellIndex := 254, clips := [3, 4] }
     c.cellIndex + 2 = ((reading 0).clip 3).cells ∧ c.listIndex + 1 < c.clips.length ∧
      c.clips.length ≤ ({ c with listIndex := 1 } : Channel).listIndex + 1) ∧
    ((reading 0).channel 8).generation = 0 := by decide +kernel
/-- Stale and current reads of an EMPTY entry, and a frozen record. -/
theorem witness_ReadEndsByItsGeneration_empty :
    let s := fun (g : Word) => (reading g).setClip 3 { (reading g).clip 3 with state := .empty }
    ((s 0).clip 3).state = .empty ∧ (s 0).clips.reads[0]? = some ⟨2, 3, 0, 2, 0, 0, false⟩ ∧
      ((s 0).channel 2).generation = 0 ∧ (s 1).clips.reads[0]? = some ⟨2, 3, 0, 2, 0, 1, false⟩ ∧
      ((s 1).channel 2).generation ≠ 1 ∧
      ({ (s 1).clips with record := { (s 1).clips.record with frozen := true } } : ClipStore).record.frozen = true := by
  decide +kernel
theorem witness_ClipReleaseAndClipFaultClear : 127 < (128 : Byte).toNat := by decide
theorem witness_ClipDefineMakesTheEntryLoading :
    (loading.clip 4).state = .empty ∧ (∀ k, (loading.clip k).state ≠ .empty →
      (loading.clip k).basePage + (loading.clip k).pages ≤ 1 ∨ 1 + 4095 ≤ (loading.clip k).basePage) ∧
      (1048320 + 255) / 256 ≤ 4095 ∧ 1 + 4095 ≤ 4096 := by decide +kernel

/-- Each test of R98 that fails, at its edge: a clip number, a used entry, each field, the pages for the cells, the end of the
store, and a page of another clip. -/
theorem witness_ClipDefineMakesTheEntryLoading_refused :
    128 ≤ (128 : Byte).toNat ∧ (loading.clip 3).state ≠ .empty ∧ (4 : Byte).toNat = (4 : Fin 128).val ∧
      4095 < (4096 : Half).toNat ∧ (0 : Half).toNat < 1 ∧ 4096 < (4097 : Half).toNat ∧ (0 : Word).toNat < 1 ∧
      1048576 < (1048577 : Word).toNat ∧ stampValid 0x00989680 = false ∧ 1280000000 < (1280000001 : Word).toNat ∧
      (1 : Half).toNat < ((257 : Word).toNat + 255) / 256 ∧ 4096 < (4095 : Half).toNat + (2 : Half).toNat ∧
      (loading.clip 3).basePage < (0 : Half).toNat + (1 : Half).toNat ∧
      (0 : Half).toNat < (loading.clip 3).basePage + (loading.clip 3).pages := by decide +kernel

/-- R103: the segment's first byte is in the pages, and the next segment is 1. -/
theorem test_segment_written :
    memRead (after (.loadCellTaken false) loading).clips.pages 0 = 0xAA ∧
      ((after (.loadCellTaken false) loading).clip 3).nextSegment = 1 := by decide +kernel
/-- R123: cells of an empty memory are malformed, and queue as null cells. -/
theorem test_read_completes :
    ((after (.fetchReadCompletes 0 false) (reading 0)).channel 2).queue.map QueueEntry.cell = [nullCell, nullCell] ∧
      ((after (.fetchReadCompletes 0 false) (reading 0)).channel 2).malformed = 2 := by decide +kernel

/-- R127, R150: a faulting read of the current generation halts its channel, and takes an ARMED break off it. -/
theorem test_read_fault :
    ((after (.fetchReadCompletes 0 true) (reading 0)).channel 2).halted = true ∧
      (let t := after (.fetchReadCompletes 0 true)
         ((reading 0).setSchedule 2 [{ entry .armed with primeGeneration := some 0 }])
       t.schedule 2 = [] ∧ t.splice.asRun.map AsRunRecord.reason = [.clipFault]) := by decide +kernel

/-! ### Cues and breaks -/

/-- A cue of a SCHEDULE or CANCEL action with a break id, an in-block, an out-block and a PT. -/
def cueOf (action : Byte) (id inBlock outBlock : Half) (pt : Stamp) : Payload :=
  Table.ofList 240 0 ([2, action] ++ be16 id ++ be16 inBlock ++ be16 outBlock ++ be32 pt)
/-- `cued` with a schedule, waiting for a cue. -/
def judging (p : Payload) (l : List ScheduleEntry) : State :=
  let s := cued.setSchedule 2 l
  { s with splice := { s.splice with intake := [p] } }
/-- A schedule of four breaks, none of id 77 or sharing blocks 20 to 24. -/
def fullSchedule : List ScheduleEntry :=
  [{ entry .pending with breakId := 1 }, { entry .pending with breakId := 2, inBlock := 8, outBlock := 9 },
   { entry .pending with breakId := 3, inBlock := 9, outBlock := 10 },
   { entry .pending with breakId := 4, inBlock := 10, outBlock := 11 }]
/-- A bad cue of each kind; cues ignored, refused for each reason, and accepted, as a new break, as a replacement and ahead
of an ARMED head; cues that cancel a break, and none. -/
theorem witness_TakenCueIsJudged :
    (let s := judging (Table.ofList 240 0 [8]) []
     s.splice.intake = [Table.ofList 240 0 [8]] ∧ 7 < (readCue (Table.ofList 240 0 [(8 : Byte)])).service.toNat) ∧
    (readCue (cueOf 3 77 4 8 0)).action = 3 ∧
    cued.splice.intake = [cueBytes] ∧ readCue cueBytes = ⟨2, 1, 77, 4, 8, 0x01000000⟩ ∧
      (cued.service 2).enable = true ∧ cued.lookupBreak 2 77 = some breakEntry ∧ windowLength 4 8 = 4 ∧
      cued.splice.lastNoticed = none ∧ cued.schedule 2 = [] ∧ (∀ k ∈ breakEntry.clips, (cued.clip k).state ≠ .empty) ∧
      (cued.service 3).enable = false ∧ cued.lookupBreak 2 78 = none ∧ stampValid 0x00989680 = false ∧
      windowLength 4 4 = 0 ∧ windowLength 4 4101 = 4097 ∧ precedes 4 4 = false ∧ precedes 3 4 = true ∧
      (judging cueBytes [entry .armed]).schedule 2 = [entry .armed] ∧ (entry .armed).inBlock = 4 ∧
      (entry .armed).outBlock = 8 ∧ (entry .armed).pt = 0x01000000 ∧ (entry .armed).clips = breakEntry.clips ∧
      (entry .armed).labelMap = breakEntry.labelMap ∧ (readCue (cueOf 1 77 5 8 0x01000000)).inBlock ≠ 4 ∧
      ((live 0).clip 3).state = .empty ∧ windowHolds 4 8 7 = true ∧
      (fullSchedule.filter fun e => decide (e.breakId ≠ 77)) = fullSchedule ∧ fullSchedule.length = 4 ∧
      (∀ x ∈ fullSchedule, windowHolds 20 24 x.inBlock = false ∧ windowHolds x.inBlock x.outBlock 20 = false) ∧
      (let old := { entry .armed with breakId := 5, inBlock := 8, outBlock := 9 }
       precedes 4 old.inBlock = true ∧ old.state = .armed ∧ windowHolds 4 8 8 = false ∧ windowHolds 8 9 4 = false) ∧
      (readCue (cueOf 2 77 0 0 0)).action = 2 ∧
      ((judging (cueOf 2 77 0 0 0) [entry .active]).schedule 2).find? (fun e => decide (e.breakId = 77)) =
        some (entry .active) := by
  decide +kernel
/-- One PENDING break, with an earlier prime and without; no such break; no such service; and breaks found ACTIVE, with the
cancel requested and not, and ARMED. -/
theorem witness_CancelledBreakLeavesARecord :
    let s := cued.setSchedule 2 [entry .pending]
    s.schedule 2 = [entry .pending] ∧ (entry .pending).state = .pending ∧ (entry .pending).primeGeneration = none ∧
      ({ entry .pending with primeGeneration := some 3 } : ScheduleEntry).primeGeneration ≠ none ∧
      8 ≤ (8 : Byte).toNat ∧ (s.schedule 3).find? (fun e => decide (e.breakId = 77)) = none ∧
      (s.schedule 2).find? (fun e => decide (e.breakId = 77)) = some (entry .pending) ∧
      (inBreak.schedule 2).find? (fun e => decide (e.breakId = 77)) = some (entry .active) ∧
      (entry .active).cancelRequested = false ∧
      ({ entry .active with cancelRequested := true } : ScheduleEntry).state = .active ∧ (entry .armed).state = .armed := by
  decide +kernel

/-- R140: the cue is accepted, and its clip claimed. -/
theorem test_cue_accepted :
    ((after .cueTaken cued).schedule 2).map ScheduleEntry.breakId = [77] ∧
      ((after .cueTaken cued).clip 3).useCount = 1 := by decide +kernel
/-- R143: the break is cancelled with a record. -/
theorem test_break_cancelled :
    (after (.cancelBreak (.cell 9) 2 77) (after .cueTaken cued)).splice.asRun.map AsRunRecord.outcome = [.cancelled] := by
  decide +kernel
/-- R148: after a cue is accepted, its break at the head is armed and primed against the last block noticed, when its clip is
READY; one whose window has passed leaves behind a cancelled head. -/
theorem test_head_tests :
    let s := fun (b : Half) =>
      let u := cued.setClip 3 { loadingClip with state := .ready }
      { u with splice := { u.splice with lastNoticed := some b } }
    ((after .cueTaken (s 3)).schedule 2).map ScheduleEntry.state = [.armed] ∧
      ((after .cueTaken (s 3)).channel 2).state = .priming ∧
      (let t := after (.cancelBreak (.cell 9) 2 77)
         ((s 9).setSchedule 2 [entry .pending, { entry .pending with breakId := 78 }])
       t.schedule 2 = [] ∧ t.splice.asRun.map AsRunRecord.reason = [.blocksMissing, .none]) := by decide +kernel
/-- R129: a break that was primed and then displaced has its channel flushed when it is cancelled. -/
theorem test_demoted_break_cancelled :
    let s := fun (g : Option Word) =>
      after (.cancelBreak (.cell 9) 2 77) (cued.setSchedule 2 [{ entry .pending with primeGeneration := g }])
    ((s (some 0)).channel 2).generation = 1 ∧ ((s none).channel 2).generation = 0 := by decide +kernel
/-- R129, R140: a break that was primed, displaced and then replaced by a cue has its channel flushed when it is cancelled. -/
theorem test_replaced_break_cancelled :
    let t := after .cueTaken
      (judging (cueOf 1 77 5 8 0x01000000) [{ entry .pending with primeGeneration := some 0 }])
    (t.schedule 2).map ScheduleEntry.inBlock = [5] ∧
      ((after (.cancelBreak (.cell 9) 2 77) t).channel 2).generation = 1 := by decide +kernel

/-! ### Counters, alarms and lists -/

theorem witness_CounterCommandActsOnOneCounter : (3 : Byte).toNat = (3 : Fin 4).val ∧ 4 ≤ (4 : Byte).toNat := by decide
/-- A counter alone; and one below a running CASCADE counter that stands above 1, and at 1. -/
theorem witness_UnderflowReloadsTheCounter :
    (let s := { live 0 with counters := (live 0).counters.set 3 { oneLeft with action := some 5 } }
     (s.counters.get 3).running = true ∧ (s.counters.get 3).value = 1 ∧ (s.counters.get 3).action = some 5 ∧
      (∀ k : Fin 4, ¬(k.val = (3 : Fin 4).val + 1)) ∧ s.runner.state = .idle) ∧
    (let s := fun v => ({ live 0 with
       counters := ((live 0).counters.set 2 oneLeft).set 3 { oneLeft with source := .cascade, value := v } } : State)
     ((s 9).counters.get 2).running = true ∧ ((s 9).counters.get 2).value = 1 ∧ ((s 9).counters.get 2).action = none ∧
      ((s 9).counters.get 3).running = true ∧ ((s 9).counters.get 3).source = .cascade ∧
      ((s 9).counters.get 3).value ≠ 1 ∧ ((s 1).counters.get 3).value = 1 ∧ ((s 1).counters.get 3).action = none) := by
  decide +kernel
/-- Each test of R162 at its edge, for an alarm with a list and without. -/
theorem witness_AlarmCommandsArmAndDisarm :
    stampValid 0x80000000 = true ∧ State.reset.time.state = .unset ∧ (live 0).time.state ≠ .unset ∧
      diff 0x80000000 (live 0).now = 1270000000 ∧ diff 0x01000001 (live 0).now = 1 ∧
      (3 : Byte).toNat = (3 : Fin 4).val ∧ 4 ≤ (4 : Byte).toNat ∧
      diff 0x80000001 (live 0).now = 1270000001 ∧ diff 0x01000000 (live 0).now = 0 ∧
      diff 0 (live 0).now = -10000000 ∧ diff 0xFF98967F (live 0).now = -10000001 ∧ stampValid 0xFF98967F = true ∧
      stampValid 0x00989680 = false ∧ (16 ≤ (16 : Byte).toNat ∧ (254 : Byte) ≠ 0xFF) ∧
      listByte none = 0xFF ∧ listByte (some 15) = 15 := by decide +kernel
theorem witness_ReachedAlarmFires :
    (let s := { live 5 with
       alarms := (live 5).alarms.set 0 { Alarm.reset with armed := true, targetSeconds := 1, targetTicks := 5, list := some 2 } }
     (s.alarms.get 0).armed = true ∧ s.time.seconds = (s.alarms.get 0).targetSeconds ∧
      (s.alarms.get 0).targetTicks ≤ s.time.ticks.val ∧ s.runner.state = .idle ∧ s.runner.triggers = []) ∧
    ((1 : Word) - 2).toNat > 2147483647 ∧ ((3 : Word) - 2).toNat = 1 := by decide +kernel
/-- A push on a RUNNING runner with and without room, on an IDLE one of a defined and an undefined list, and with a
defined list waiting; a taking of a defined and an undefined list. -/
theorem witness_TriggersArePushedAndTaken :
    (runnerBusy []).triggers.length < 8 ∧ (runnerBusy []).state ≠ .idle ∧
      8 ≤ (runnerBusy (List.replicate 8 0)).triggers.length ∧ (runnerBusy (List.replicate 8 0)).state ≠ .idle ∧
      (runnerReady []).state = .idle ∧ (runnerReady []).triggers = [] ∧
      ((runnerReady []).descriptors.get 3).defined = true ∧ ((runnerReady []).descriptors.get 4).defined = false ∧
      (255 : Fin 256).val = ((runnerReady []).descriptors.get 3).first ∧
      (runnerReady [3]).triggers = 3 :: [] ∧ (runnerReady [4]).triggers = 4 :: [] ∧ 16 ≤ (16 : Byte).toNat := by
  decide +kernel

/-- R162: an alarm armed one tick ahead stands at that tick. -/
theorem test_alarm_arm :
    ((after (.alarmArm (.cell 1) 0 0xFF 0x01000001) (live 0)).alarms.get 0).targetTicks = 1 ∧
      ((after (.alarmArm (.cell 1) 0 0xFF 0x01000001) (live 0)).alarms.get 0).armed = true := by decide +kernel
/-- R162: an alarm of a target 10,000,000 ticks behind fires at once, and starts its list. -/
theorem test_alarm_at_once :
    let t := after (.alarmArm (.cell 1) 0 3 0) { live 0 with runner := runnerReady [] }
    (t.alarms.get 0).fires = 1 ∧ (t.alarms.get 0).armed = false ∧ t.engine.latched.getLsbD 22 = true ∧
      t.runner.state = .running 3 255 1 0 StoredCommand.cleared := by decide +kernel
/-- R159: the underflow of counter 3 latches position 21. -/
theorem test_counter_underflow :
    (after (.counterUnderflow 3) { live 0 with counters := (live 0).counters.set 3 oneLeft }).engine.latched =
      BitVec.ofNat 24 (2 ^ 21) := by decide +kernel
/-- R166: a ninth trigger is lost. -/
theorem test_run_list_full :
    (after (.runList (.cell 1) 4) { live 0 with runner := runnerBusy (List.replicate 8 0) }).runner.lastLost =
      some 4 := by decide +kernel
/-- R167: an IDLE runner starts a pushed list at once. -/
theorem test_run_list_starts :
    (after (.runList (.cell 1) 3) { live 0 with runner := runnerReady [] }).runner.state =
      .running 3 255 1 0 StoredCommand.cleared := by decide +kernel

/-! ### The Management Engine -/

/-- A management cell addressed to all, tag 9, with a code and parameters. -/
def mgmt (form code : Byte) (params : List Byte) : Payload :=
  Table.ofList 240 0 ([form, 0, 0, 0, 0, 9, code, 0] ++ params)

/-- A part with one management cell waiting. -/
def waiting (p : Payload) : State := { live 0 with engine := { Engine.reset 0 with intake := [p] } }

/-- The same with the runner offering a MUTE ON. -/
def bothWaiting (last : CommandSource) : State :=
  { waiting (mgmt 3 8 []) with
    engine := { (waiting (mgmt 3 8 [])).engine with lastSource := last }
    runner := { ListRunner.reset with state := .running 0 0 1 0 ⟨33, 14, Table.ofList 64 0 [1]⟩ } }

theorem witness_ReportQueueIsFirstInFirstOut :
    (Engine.reset 0).reports.length < 16 ∧
      16 ≤ (List.replicate 16 ((Engine.reset 0).eventReport 0)).length ∧
      (after (.eventRead (.cell 1)) (live 0)).engine.reports.length = 1 := by decide +kernel
theorem witness_EngineTakesItsSourcesInTurn :
    (bothWaiting .intake).engine.intake = [mgmt 3 8 []] ∧ (bothWaiting .intake).offered? = some (33, .mute 1) ∧
      (bothWaiting .intake).engine.lastSource = .intake ∧ (bothWaiting .runner).engine.lastSource = .runner ∧
      (waiting (mgmt 3 8 [])).runner.state = .idle ∧ (waiting (mgmt 3 8 [])).runner.triggers = [] ∧ (readMgmt (mgmt 3 8 [])).form = 3 ∧
      (readMgmt (mgmt 4 8 [])).form = 4 := by decide +kernel
/-- A row from a cell and from the runner; and a list at its last command, before it, and with a command that fails or
makes the runner IDLE. -/
theorem witness_CommandRowsExecuteTheirCommand :
    commandOf (.muteOn (.cell 9)) = some (.cell 9, .mute 1) ∧ commandOf (.muteOn .list) = some (.list, .mute 1) ∧
      (bothWaiting .intake).nextSource = some .runner ∧ (bothWaiting .intake).offered? = some (33, .mute 1) ∧
      (runCommand (.mute 1) (bothWaiting .intake)).status = .ok ∧
      ((bothWaiting .intake).execute .runner 33 (.mute 1)).runner.state =
        .running 0 0 1 0 ⟨33, 14, Table.ofList 64 0 [1]⟩ ∧
      (({ runnerBusy [] with state := .running 0 0 2 0 StoredCommand.cleared } : ListRunner).state ≠ .idle) ∧
      (runCommand (.unknown 0) (bothWaiting .intake)).status ≠ .ok ∧
      ((bothWaiting .intake).execute .runner 33 (.resetSite 2)).runner.state = .idle := by
  decide +kernel
theorem witness_RefusedCommandChangesNothing :
    (runCommand (.mute 3) (live 0)).status = .badField ∧
      (runCommand (.runList 4) { live 0 with runner := runnerBusy (List.replicate 8 0) }).status = .full := by
  decide +kernel
theorem witness_UnknownAndReadOnlyAreRefused : 14 < (15 : Byte).toNat ∧ (14 : Byte).toNat ∈ [0, 4, 5, 6, 7, 8, 11, 14] := by
  decide
/-- Entries accepted, and refused for an index, a role, a service, a source, a mode, source CASCADE on counter 0 and a
list. -/
theorem witness_LabelAndCounterWritesSetTheirFields :
    (2047 : Half).toNat < 2048 ∧ byteAt [2, 7, 0, 0, 0, 0, 0, 0] 0 = Role.service.code ∧
      (byteAt [2, 7, 0, 0, 0, 0, 0, 0] 1).toNat ≤ 7 ∧
      (let e : List Byte := [0, 0, 0, 0, 3, 0, 0, 0xFF, 0, 0, 0, 0]
       e.length = 12 ∧ byteAt e 4 = CounterSource.cascade.code ∧ byteAt e 5 = CounterMode.oneShot.code ∧
        byteAt e 7 = listByte none ∧ (1 : Fin 4) ≠ 0) ∧
      2048 ≤ (2048 : Half).toNat ∧ 4 ≤ (4 : Half).toNat ∧ 2 < (3 : Byte).toNat ∧ 7 < (8 : Byte).toNat ∧
      1 < (2 : Byte).toNat ∧ (16 ≤ (254 : Byte).toNat ∧ (254 : Byte) ≠ 0xFF) := by decide
/-- Each answer of the three tests of a depth and a refill mark, at their edges. -/
theorem depth_answers :
    DepthAnswer State.reset 7 448 416 .ok ∧ DepthAnswer State.reset 7 448 417 .badField ∧
      DepthAnswer State.reset 7 512 224 .full ∧
      DepthAnswer (State.reset.setChannel 7 { State.reset.channel 7 with state := .serving }) 7 384 224 .busy := by
  refine ⟨?_, ?_, ?_, ?_⟩ <;> (unfold DepthAnswer; decide +kernel)
/-- Entries accepted, with a bad flag, with a bad arm lead, and refused by each test of the depth; Break Map entries. -/
theorem witness_ServiceAndBreakWritesStore :
    (let e : List Byte := [1, 64, 1, 0xC0, 1, 0xA0] ++ List.replicate 18 0
     e.length = 24 ∧ byteAt e 0 = yesNo true ∧ (byteAt e 1).toNat = 64 ∧ serviceChannel 7 = 7 ∧
      (halfAt e 2).toNat = 448 ∧ (halfAt e 4).toNat = 416) ∧
    2 ≤ (2 : Byte).toNat ∧ 64 < (65 : Byte).toNat ∧
    (let e : List Byte := [0x82, 0, 77, 1, 3, 0, 0, 0, 0xFF, 0xFF, 0xFF, 0xFF, 0xFF, 0xFF, 0xFF, 0xFF]
     e.length = 16 ∧ readBreak? e = some breakEntry ∧
      (cued.splice.breakMap.get 0).valid = true ∧ (cued.splice.breakMap.get 0).service = breakEntry.service ∧
      (cued.splice.breakMap.get 0).breakId = breakEntry.breakId ∧ cued.breakTaken 0 breakEntry = false) := by
  decide +kernel
/-- Indexes past both spaces; and a service of 8, clip counts of 0 and 5, a clip of 128, and an output label of 2047. -/
theorem witness_ServiceAndBreakWritesStore_refused :
    8 ≤ (8 : Half).toNat ∧ 64 ≤ (64 : Half).toNat ∧ ((0x40 : Byte).extractLsb' 3 4) ≠ 0 ∧ (0 : Byte).toNat < 1 ∧
      4 < (5 : Byte).toNat ∧
      (let e : List Byte := [0x82, 0, 77, 1, 128, 0, 0, 0, 7, 0xFF, 0, 0, 0, 0, 0, 0]
       e.length = 16 ∧ 127 < (byteAt e (4 + 0)).toNat ∧ (halfAt e (8 + 2 * 0)).toNat = 2047 ∧
        halfAt e (8 + 2 * 0) ≠ 0xFFFF) := by decide +kernel

/-- A Site Settings entry of the reset values. -/
def settingsEntry : List Byte := State.reset.settingsBytes

/-- Its fields. -/
def settings : Settings :=
  ⟨0, 200, .A, false, 20000, 120000000, 50, 300, 65011712, 2000, none, Table.fill 4 none, 512, 256, 0⟩

/-- An entry accepted outside FALLBACK; one not readable; one whose clip is EMPTY; in FALLBACK one that writes the enable
off, and one that changes the map; and one that moves the designation. -/
theorem witness_SettingsWriteSetsEveryField :
    (settingsEntry.length = 40 ∧ readSettings? settingsEntry = some settings ∧ settings.inRange = true ∧
      settings.fallbackClip = none ∧ State.reset.emitter.state ≠ .fallback) ∧
    DepthAnswer State.reset 8 settings.depth settings.refill .ok ∧
    (readSettings? (settingsEntry.set 5 2) = none ∧ (settingsEntry.set 5 2).length = 40 ∧
      (readSettings? (settingsEntry.set 24 3)).map Settings.fallbackClip = some (some 3) ∧
      (State.reset.clip 3).state = .empty ∧ ((loading.clip 3).state ≠ .empty ∧ loading.emitter.fallbackClip = none) ∧
      (inFallback []).emitter.state = .fallback ∧ (inFallback []).emitter.fallbackClip = settings.fallbackClip ∧
      (inFallback []).emitter.fallbackMap = settings.fallbackMap ∧ settings.fallbackEnable = false ∧
      (readSettings? (settingsEntry.set 27 0)).isSome = false ∧
      (readSettings? ((settingsEntry.set 26 0).set 27 7)).map (fun x => x.fallbackMap.get 0) = some (some 7)) ∧
    DepthAnswer (inFallback []) 8 settings.depth settings.refill .ok ∧
    DepthAnswer State.reset 8 576 256 .full := by
  refine ⟨by decide +kernel, ?_, by decide +kernel, ?_, ?_⟩ <;> (unfold DepthAnswer; decide +kernel)
theorem witness_ListWritesStoreAndDefine :
    (let e : List Byte := [1, 192, 64, 0]
     e.length = 4 ∧ byteAt e 0 = 1 ∧ (byteAt e 2).toNat = 64 ∧ (byteAt e 1).toNat + (byteAt e 2).toNat = 256) ∧
    (byteAt [(1 : Byte), 193, 64, 0] 1).toNat + 64 = 257 ∧ byteAt [(0 : Byte), 1, 1, 0] 0 = 0 ∧
      (List.replicate 68 (0 : Byte)).length = 68 ∧ 16 ≤ (16 : Half).toNat ∧ 256 ≤ (256 : Half).toNat ∧
      ([2, 0, 1, 0] : List Byte).length = 4 ∧ 2 ≤ (byteAt [(2 : Byte), 0, 1, 0] 0).toNat := by decide +kernel
/-- READs that pass, at the last entry, and that fail each test; and an accepted WRITE. -/
theorem witness_ReadAndDescribeReturnData :
    (1 : Byte).toNat < 14 ∧ (28 : Byte).toNat ≤ spacePerReport 1 ∧ (2020 : Half).toNat + (28 : Byte).toNat ≤ spaceEntries 1 ∧
      14 < (15 : Byte).toNat ∧ (14 : Byte).toNat ≤ 14 ∧ spacePerReport 1 < (29 : Byte).toNat ∧
      spaceEntries 1 < (2021 : Half).toNat + (28 : Byte).toNat ∧ spaceEntries 14 = 1 ∧
      (runCommand (.write 12 3 [1, 192, 64, 0]) (live 0)).status = .ok ∧
      ([1, 192, 64, 0] : List Byte).length = entrySize 12 ∧ writtenBytes 12 [1, 192, 64, 0] = [0, 1, 2] := by
  decide +kernel
theorem witness_EntriesHaveTheirLayoutSize : 14 ≤ 14 ∧ 0 < spaceEntries 14 ∧ 2047 < spaceEntries 1 := by decide
theorem witness_MuteCommandsGiveAndWithdraw :
    (State.reset.emitter.reasons.operator = false ∧ State.reset.emitter.state = .muted) ∧
      (let s := { live 0 with emitter := { (live 0).emitter with state := .muted, reasons := ⟨false, true⟩ } }
       s.emitter.reasons = ⟨false, true⟩ ∧ s.emitter.state = .muted ∧ s.headReached = false) ∧
      State.reset.emitter.reasons.held = true ∧ onAir.emitter.reasons.held = false ∧ onAir.emitter.state = .block ∧
      (let s := { State.reset with emitter := { Emitter.reset with reasons := ⟨true, true⟩ } }
       s.emitter.reasons = ⟨true, true⟩ ∧ s.emitter.state = .muted) ∧
      onAir.emitter.current = some ⟨5, 5, 100, .A, 1⟩ ∧ (inFallback []).emitter.reasons.held = false ∧
      (onAir.emitter.reasons.operator = false ∧ onAir.emitter.state ≠ .muted) ∧
      (queuedMuted.emitter.reasons = ⟨false, true⟩ ∧ queuedMuted.emitter.state = .muted ∧
        queuedMuted.headReached = true) := by
  decide +kernel
theorem witness_TrafficResetEmptiesTheTraffic :
    State.reset.emitter.reasons.held = true ∧ onAir.emitter.reasons.held = false ∧ State.reset.leaving = [] ∧
      inBreak.leaving = [(2, entry .active, .reset, .none)] ∧ onAir.emitter.current.isSome = true := by decide +kernel

/-- R173: with both sources waiting and the intake taken from last, the runner's MUTE ON is taken. -/
theorem test_runner_in_turn :
    (after .mgmtCellTaken (bothWaiting .intake)).emitter.reasons.operator = true ∧
      (after .mgmtCellTaken (bothWaiting .intake)).runner.counts.completed = 1 := by decide +kernel
/-- R172: a cell of target form 4 is not addressed to this site. -/
theorem test_not_addressed : (after .mgmtCellTaken (waiting (mgmt 4 8 []))).engine.counts.notAddressed = 1 := by
  decide +kernel
/-- R71: MUTE ON takes the block off the air. -/
theorem test_mute_on :
    (after (.muteOn (.cell 1)) onAir).emitter.state = .muted ∧
      (after (.muteOn (.cell 1)) onAir).slot 5 = Slot.free := by decide +kernel
/-- R74: MUTE OFF with the head's stamp reached starts that block. -/
theorem test_mute_off_starts :
    (after (.muteOff (.cell 1)) queuedMuted).emitter.state = .block ∧
      (after (.muteOff (.cell 1)) queuedMuted).emitter.reasons = ⟨false, false⟩ := by decide +kernel
/-- R182: DESCRIBE of the Label Table gives 2,048 entries of 8 bytes, writable, 28 to a report. -/
theorem test_describe :
    (after (.describe (.cell 1) 1) (live 0)).engine.reports.map Report.data = [[8, 0, 0, 8, 1, 28]] := by decide +kernel
/-- R189: a REPORT cell's payload starts with the site id, the kind and the flags. -/
theorem test_report_sent :
    (after .reportSent (after (.describe (.cell 1) 1) (live 0))).out.report.map Cell.kind = some kindReport ∧
      (after .reportSent (after (.describe (.cell 1) 1) (live 0))).engine.reports = [] := by decide +kernel
/-- R185: the reset line reads the straps. -/
theorem test_reset_line : (after (.resetLine 0x123) onAir).engine.siteId = 0x123 := by decide +kernel

end Sys2Proof.Tests
end

section
/-! SUPPORT. Proofs: stamps, their differences and sums, and due offsets (01). -/

namespace Sys2Proof.Machine

/-! ### Stamps and linear values (R6) -/

/-- R6: a stamp is its seconds field over its 24 tick bits. -/
theorem stamp_toNat (x : Stamp) : x.toNat = stampSeconds x * 16777216 + stampTicks x := by
  simp only [stampSeconds, stampTicks, BitVec.extractLsb'_toNat, Nat.shiftRight_eq_div_pow]
  omega

theorem stampSeconds_lt (x : Stamp) : stampSeconds x < 256 := (x.extractLsb' 24 8).isLt

theorem stampValid_iff (x : Stamp) : stampValid x = true ↔ stampTicks x < 10000000 := decide_eq_true_iff

theorem linear_eq (x : Stamp) : linear x = stampSeconds x * 10000000 + stampTicks x := rfl

/-- R6: the linear value of a valid stamp lies below M. -/
theorem linear_lt {x : Stamp} (h : stampValid x = true) : linear x < 2560000000 := by
  have := stampSeconds_lt x
  rw [stampValid_iff] at h
  rw [linear_eq]
  omega

/-- R6: valid stamps are equal when their linear values are. -/
theorem linear_injective {x y : Stamp} (hx : stampValid x = true) (hy : stampValid y = true)
    (h : linear x = linear y) : x = y := by
  rw [stampValid_iff] at hx hy
  rw [linear_eq, linear_eq] at h
  apply BitVec.eq_of_toNat_eq
  have := stamp_toNat x
  have := stamp_toNat y
  omega

theorem stampSeconds_ofLinear {l : Nat} (h : l < 2560000000) : stampSeconds (ofLinear l) = l / 10000000 := by
  have hd : l / 10000000 < 2 ^ 8 := by omega
  have ht : l % 10000000 < 2 ^ 24 := by omega
  simp only [stampSeconds, ofLinear, Config.ticksPerSecond, BitVec.extractLsb'_toNat, BitVec.toNat_append,
    BitVec.toNat_ofNat, Nat.mod_eq_of_lt hd, Nat.mod_eq_of_lt ht, Nat.shiftLeft_eq, Nat.shiftRight_eq_div_pow,
    ← Nat.two_pow_add_eq_or_of_lt ht, Nat.mul_comm _ (2 ^ 24)]
  omega

theorem stampTicks_ofLinear {l : Nat} (h : l < 2560000000) : stampTicks (ofLinear l) = l % 10000000 := by
  have hd : l / 10000000 < 2 ^ 8 := by omega
  have ht : l % 10000000 < 2 ^ 24 := by omega
  simp only [stampTicks, ofLinear, Config.ticksPerSecond, BitVec.extractLsb'_toNat, BitVec.toNat_append,
    BitVec.toNat_ofNat, Nat.mod_eq_of_lt hd, Nat.mod_eq_of_lt ht, Nat.shiftLeft_eq, Nat.shiftRight_eq_div_pow,
    Nat.mul_comm _ (2 ^ 24), ← Nat.two_pow_add_eq_or_of_lt ht]
  omega

/-- R6: the stamp of a linear value below M has that linear value. -/
theorem linear_ofLinear {l : Nat} (h : l < 2560000000) : linear (ofLinear l) = l := by
  rw [linear_eq, stampSeconds_ofLinear h, stampTicks_ofLinear h]
  omega

/-- R6: the stamp of a linear value below M is valid. -/
theorem stampValid_ofLinear {l : Nat} (h : l < 2560000000) : stampValid (ofLinear l) = true := by
  rw [stampValid_iff, stampTicks_ofLinear h]
  omega

/-! ### Differences and sums (R7, R8) -/

theorem rawDiff_eq (a b : Stamp) : rawDiff a b = ((linear a : Int) - (linear b : Int)) % 2560000000 := rfl

theorem diff_eq (a b : Stamp) :
    diff a b = if 1280000000 < rawDiff a b then rawDiff a b - 2560000000 else rawDiff a b := rfl

/-- R8: the sum's linear value, taken into 0 to M − 1. -/
theorem addTicks_eq (x : Stamp) (d : Int) : addTicks x d = ofLinear (((linear x : Int) + d) % 2560000000).toNat := rfl

/-- R7: diff lies above −M/2 and up to +M/2. -/
theorem diff_range (a b : Stamp) : -1279999999 ≤ diff a b ∧ diff a b ≤ 1280000000 := by
  rw [diff_eq, rawDiff_eq]
  omega

theorem diff_self (a : Stamp) : diff a a = 0 := by
  rw [diff_eq, rawDiff_eq]
  omega

/-- R7: away from the edge diff changes sign with its order. -/
theorem diff_antisymm {a b : Stamp} (h : rawDiff a b ≠ 1280000000) : diff b a = -diff a b := by
  rw [rawDiff_eq] at h
  rw [diff_eq, diff_eq, rawDiff_eq, rawDiff_eq]
  omega

/-- R7: at the edge both differences are +M/2. -/
theorem diff_edge {a b : Stamp} (h : rawDiff a b = 1280000000) : diff a b = 1280000000 ∧ diff b a = 1280000000 := by
  rw [rawDiff_eq] at h
  rw [diff_eq, diff_eq, rawDiff_eq, rawDiff_eq]
  omega

/-- R7: the difference of two valid stamps is 0 only for equal ones. -/
theorem diff_eq_zero_iff {a b : Stamp} (ha : stampValid a = true) (hb : stampValid b = true) :
    diff a b = 0 ↔ a = b := by
  refine ⟨fun h => linear_injective ha hb ?_, fun h => h ▸ diff_self a⟩
  have := linear_lt ha
  have := linear_lt hb
  rw [diff_eq, rawDiff_eq] at h
  omega

/-- R7: away from the edge exactly one of after, after the other way, and equal holds. -/
theorem diff_trichotomy {a b : Stamp} (ha : stampValid a = true) (hb : stampValid b = true)
    (h : rawDiff a b ≠ 1280000000) :
    (0 < diff a b ∧ ¬0 < diff b a ∧ a ≠ b) ∨ (0 < diff b a ∧ ¬0 < diff a b ∧ a ≠ b) ∨
      (a = b ∧ ¬0 < diff a b ∧ ¬0 < diff b a) := by
  have anti := diff_antisymm h
  have zero := diff_eq_zero_iff ha hb
  rcases Int.lt_trichotomy (diff a b) 0 with neg | eq | pos
  · exact .inr (.inl ⟨by omega, by omega, fun e => absurd (zero.mpr e) (by omega)⟩)
  · exact .inr (.inr ⟨zero.mp eq, by omega, by omega⟩)
  · exact .inl ⟨pos, by omega, fun e => absurd (zero.mpr e) (by omega)⟩

theorem State.reached_iff (s : State) (x : Stamp) : s.reached x = true ↔ 0 ≤ diff s.now x := decide_eq_true_iff

/-- R55: an offer whose lead is below the minimum lead is LATE. -/
theorem State.offer_late (s : State) (f : Feed) (b : Half) (x : Stamp) (n : Nat)
    (h : diff x s.now < (s.slots.minLead : Int)) : (s.offer f b x n).1 = .late := by
  simp only [State.offer, if_pos h]

/-- Settles O3: every clause is arithmetic of the two linear values, which lie below M; only equal stamps need that
a valid stamp is determined by its linear value. -/
theorem stampDifferenceIsFolded : Obligations.StampDifferenceIsFolded := by
  refine ⟨fun a b ha hb => ⟨?_, ?_, ?_, diff_eq a b, (diff_range a b).1, (diff_range a b).2, diff_self a,
    fun h => ⟨diff_antisymm h, diff_trichotomy ha hb h⟩, diff_edge⟩, State.reached_iff, State.offer_late⟩ <;>
  · rw [rawDiff_eq]
    omega

/-- Settles O4: the sum is the stamp of a linear value below M, so its own linear value is that one. -/
theorem stampSumIsThatFarAway : Obligations.StampSumIsThatFarAway := by
  intro x d hx _
  have below : (((linear x : Int) + d) % 2560000000).toNat < 2560000000 := by omega
  have sum : (linear (addTicks x d) : Int) = ((linear x : Int) + d) % 2560000000 := by
    rw [addTicks_eq, linear_ofLinear below]
    omega
  refine ⟨addTicks_eq x d ▸ stampValid_ofLinear below, sum, fun low high => ?_⟩
  rw [diff_eq, rawDiff_eq, sum]
  omega

/-! ### Due offsets (R14, R80) -/

/-- R14: a due offset is at most a number of ticks when its time, in 1/65,536 of a tick, lies below the next. -/
theorem dueOffset_le_iff (period k ticks : Nat) : dueOffset period k ≤ ticks ↔ k * period < (ticks + 1) * 65536 := by
  rw [dueOffset, ← Nat.lt_succ_iff, Nat.div_lt_iff_lt_mul (by decide)]

/-- Settles O5: the cell number taken is the quotient, so that one more period passes the bound. -/
theorem largestReachedCellNumber : Obligations.LargestReachedCellNumber := by
  intro period ticks hp
  have low : lastDue period ticks * period ≤ (ticks + 1) * 65536 - 1 := Nat.div_mul_le_self _ _
  have high : (ticks + 1) * 65536 - 1 < (lastDue period ticks + 1) * period :=
    (Nat.div_lt_iff_lt_mul hp).mp (Nat.lt_succ_self _)
  exact ⟨(dueOffset_le_iff ..).mpr (by omega), Nat.lt_of_not_le fun h => by rw [dueOffset_le_iff] at h; omega⟩

end Sys2Proof.Machine
end

section
/-! SUPPORT. Proofs: events stay latched; counters at one event of a source; alarms at one test (09, 10). -/

namespace Sys2Proof

variable {α : Type} {n : Nat}

/-- A table's entries in index order. -/
theorem Table.items_eq (t : Table α n) : t.items = (List.finRange n).map t.get := by
  have := t.items_map id
  rwa [List.map_id] at this

/-- Two different entries may be replaced in either order. -/
theorem Table.set_comm (t : Table α n) {i j : Fin n} (a b : α) (h : i ≠ j) :
    (t.set i a).set j b = (t.set j b).set i a := by
  have : i.val ≠ j.val := fun e => h (Fin.ext e)
  simp only [Table.set, List.set_comm _ _ this]

end Sys2Proof

namespace Sys2Proof.Machine

variable (s : State)

/-! ### Events stay latched (R180) -/

/-- R180: every event latched in `s` is latched in `t`. -/
def State.LatchedIn (s t : State) : Prop :=
  ∀ k, s.engine.latched.getLsbD k = true → t.engine.latched.getLsbD k = true

theorem State.LatchedIn.refl : s.LatchedIn s := fun _ h => h

theorem State.LatchedIn.trans {s t u : State} (h : s.LatchedIn t) (k : t.LatchedIn u) : s.LatchedIn u :=
  fun n x => k n (h n x)

/-- Only the engine's latch is asked. -/
theorem State.latchedIn_of_engine {s t : State} (h : t.engine = s.engine) : s.LatchedIn t := fun _ x => h ▸ x

/-- R180: latching keeps every event. -/
theorem Engine.latch_latched {g : Engine} {k : Nat} (e : Event) (h : g.latched.getLsbD k = true) :
    (g.latch e).latched.getLsbD k = true := by
  unfold Engine.latch
  split
  · exact h
  · simp [h]

theorem Event.position_lt (e : Event) : e.position < 24 := by
  cases e <;> simp [Event.position]
  omega

/-- R180: an event that is latched joins the latch. -/
theorem Engine.latch_self (g : Engine) (e : Event) : (g.latch e).latched.getLsbD e.position = true := by
  unfold Engine.latch
  split
  · assumption
  · have bit : e.bit.getLsbD e.position = true := by
      rw [Event.bit, BitVec.getLsbD_ofNat, decide_eq_true e.position_lt, Nat.testBit_two_pow_self]
      rfl
    exact (BitVec.getLsbD_or ..).trans (by rw [bit, Bool.or_true])

theorem State.latch_latchedIn (e : Event) : s.LatchedIn (s.latch e) := fun _ h => Engine.latch_latched e h

theorem State.latch_self (e : Event) : (s.latch e).engine.latched.getLsbD e.position = true := s.engine.latch_self e

/-- A fold keeps every event that each of its steps keeps. -/
theorem foldl_latchedIn {α : Type} (g : State → α → State) (h : ∀ b a, State.LatchedIn b (g b a)) :
    ∀ (l : List α) (b : State), b.LatchedIn (l.foldl g b)
  | [], b => .refl b
  | a :: l, b => (h b a).trans (foldl_latchedIn g h l (g b a))

theorem State.takeTrigger_latchedIn : s.LatchedIn s.takeTrigger := by
  unfold State.takeTrigger
  split
  · dsimp only
    split
    · exact State.latchedIn_of_engine rfl
    · exact State.latch_latchedIn _ _
  · exact .refl s

theorem takeTriggers_latchedIn (k : Nat) : s.LatchedIn (takeTriggers k s) := by
  induction k generalizing s with
  | zero => exact .refl s
  | succ k ih => exact s.takeTrigger_latchedIn.trans (ih _)

theorem State.runnerTakes_latchedIn : s.LatchedIn s.runnerTakes := takeTriggers_latchedIn s _

theorem State.joinTrigger_latchedIn (l : Fin 16) : s.LatchedIn (s.joinTrigger l) := by
  unfold State.joinTrigger
  split
  · exact State.latch_latchedIn _ _
  · exact State.latchedIn_of_engine rfl

theorem State.push?_latchedIn (l : Option (Fin 16)) : s.LatchedIn (s.push? l) := by
  cases l with
  | none => exact .refl s
  | some l =>
    have joined := s.runnerTakes_latchedIn.trans (State.joinTrigger_latchedIn _ l)
    exact joined.trans (State.runnerTakes_latchedIn _)

/-! ### One counter at an event (R158, R159) -/

theorem State.underflowOne_counters (n : Fin 4) :
    (s.underflowOne n).counters = s.counters.set n (s.counters.get n).underflowed := by
  simp [State.underflowOne]

theorem State.underflowOne_latchedIn (n : Fin 4) : s.LatchedIn (s.underflowOne n) :=
  State.LatchedIn.trans (t := (s.setCounter n (s.counters.get n).underflowed).latch (.counter n))
    (fun _ h => Engine.latch_latched _ h) (State.push?_latchedIn _ _)

theorem State.underflowOne_latched (n : Fin 4) :
    (s.underflowOne n).engine.latched.getLsbD (18 + n.val) = true :=
  State.push?_latchedIn _ _ _ (State.latch_self _ (.counter n))

/-- R159: with no list for its action an underflow leaves the runner alone. -/
theorem State.underflowOne_runner (n : Fin 4) (h : (s.counters.get n).action = none) :
    (s.underflowOne n).runner = s.runner := by
  unfold State.underflowOne
  rw [h]
  rfl

/-- R158, R159: one pulse of counter `n` where it is pulsed, with no cascade above it. -/
def State.pulseOne (s : State) (n : Fin 4) : State :=
  if (s.counters.get n).value = 1 then s.underflowOne n
  else s.setCounter n { s.counters.get n with value := (s.counters.get n).value - 1 }

theorem State.pulseOne_counters (n : Fin 4) (h : (s.counters.get n).running = true) :
    (s.pulseOne n).counters = s.counters.set n (s.counters.get n).afterPulse := by
  unfold State.pulseOne Counter.afterPulse
  split
  · rw [s.underflowOne_counters]
    simp [Counter.underflowed, h]
  · rfl

theorem State.pulseOne_latchedIn (n : Fin 4) : s.LatchedIn (s.pulseOne n) := by
  unfold State.pulseOne
  split
  · exact s.underflowOne_latchedIn n
  · exact .refl _

/-- Counter `n` is pulsed at an event of a source: `below` says that the one below it underflows there. -/
def State.pulsedAt (s : State) (src : CounterSource) (below : Bool) (n : Fin 4) : Bool :=
  let c := s.counters.get n
  c.running && (decide (c.source = src) || (below && decide (c.source = .cascade)))

/-- One event of a source counter by counter, each pulsed by the event or by the underflow below it. The order of the
effects is that of `State.pulseAll`. -/
def State.pulseUp (src : CounterSource) : Bool → List (Fin 4) → State → State
  | _, [], s => s
  | below, n :: rest, s =>
    if s.pulsedAt src below n then
      State.pulseUp src (decide ((s.counters.get n).value = 1)) rest (s.pulseOne n)
    else State.pulseUp src false rest s

/-- R159: the pulse that an underflow below gives to a counter above it, where there is one of source CASCADE. -/
def State.cascade (fuel : Nat) (below : Bool) (above : Option (Fin 4)) (s : State) : State :=
  match above with
  | some n =>
    if below && (s.counters.get n).running && decide ((s.counters.get n).source = .cascade) then pulseFrom fuel n s
    else s
  | none => s

@[simp] theorem State.cascade_false (fuel : Nat) (above : Option (Fin 4)) : State.cascade fuel false above s = s := by
  cases above <;> rfl

/-- R159: a pulse of a running counter is its own pulse and the cascade into the one above it. -/
theorem pulseFrom_running (fuel : Nat) (n : Fin 4) (h : (s.counters.get n).running = true) :
    pulseFrom (fuel + 1) n s =
      State.cascade fuel (decide ((s.counters.get n).value = 1)) (index? 4 (n.val + 1)) (s.pulseOne n) := by
  unfold pulseFrom State.pulseOne
  by_cases hv : (s.counters.get n).value = 1
  · simp only [h, hv, Bool.true_eq_false, if_false, if_true, decide_true, State.cascadeTo, State.cascade]
    cases index? 4 (n.val + 1) with
    | none => rfl
    | some k =>
      cases hk : ((s.underflowOne n).counters.get k).running &&
        decide (((s.underflowOne n).counters.get k).source = .cascade) <;> simp [hk]
  · simp [h, hv]

/-- R159: a stopped counter takes no pulse. -/
theorem pulseFrom_stopped (fuel : Nat) (n : Fin 4) (h : (s.counters.get n).running = false) :
    pulseFrom fuel n s = s := by
  cases fuel with
  | zero => rfl
  | succ fuel => simp [pulseFrom, h]

/-- A pulse and its cascade keep the source of every counter. -/
theorem pulseFrom_source (m : Fin 4) (fuel : Nat) :
    ∀ (n : Fin 4) (s : State), ((pulseFrom fuel n s).counters.get m).source = (s.counters.get m).source := by
  induction fuel with
  | zero => intros; rfl
  | succ fuel ih =>
    intro n s
    cases hr : (s.counters.get n).running with
    | false => rw [pulseFrom_stopped s _ n hr]
    | true =>
      have one : ((s.pulseOne n).counters.get m).source = (s.counters.get m).source := by
        rw [s.pulseOne_counters n hr, Table.get_set]
        split
        · next h => subst h; unfold Counter.afterPulse; split <;> rfl
        · rfl
      rw [pulseFrom_running s fuel n hr]
      unfold State.cascade
      split
      · split
        · rw [ih, one]
        · exact one
      · exact one

/-- The list goes up counter by counter to the last. -/
def risesToLast : List (Fin 4) → Prop
  | [] => True
  | n :: rest => index? 4 (n.val + 1) = rest.head? ∧ risesToLast rest

/-- The pulses of the counters of a source in ascending number. -/
def State.pulseSources (s : State) (src : CounterSource) (l : List (Fin 4)) : State :=
  l.foldl (fun s n => if (s.counters.get n).source = src then s.pulse n else s) s

/-- R158, R159: the pulses of a source, begun where a cascade has reached, are those taken counter by counter. -/
theorem State.pulseSources_cascade (src : CounterSource) (hs : src ≠ .cascade) (l : List (Fin 4)) :
    ∀ (s : State) (fuel : Nat) (below : Bool), risesToLast l → l.length ≤ 4 → l.length ≤ fuel →
      (State.cascade fuel below l.head? s).pulseSources src l = State.pulseUp src below l s := by
  induction l with
  | nil => intros; rfl
  | cons n rest ih =>
    intro s fuel below ⟨up, rises⟩ short fuelled
    obtain ⟨fuel, rfl⟩ : ∃ k, fuel = k + 1 := ⟨fuel - 1, by simp at fuelled; omega⟩
    simp only [List.length_cons] at short fuelled
    have step : ∀ u : State, u.pulseSources src (n :: rest) =
        (if (u.counters.get n).source = src then u.pulse n else u).pulseSources src rest := fun _ => rfl
    have onward : ∀ k, rest.length ≤ k → (s.counters.get n).running = true →
        (pulseFrom (k + 1) n s).pulseSources src rest =
          State.pulseUp src (decide ((s.counters.get n).value = 1)) rest (s.pulseOne n) := fun k hk hr => by
      rw [pulseFrom_running s k n hr, up]
      exact ih _ k _ rises (by omega) hk
    have idle : s.pulseSources src rest = State.pulseUp src false rest s := by
      have := ih s 4 false rises (by omega) (by omega)
      rwa [State.cascade_false] at this
    rw [step, State.pulseUp]
    by_cases own : (s.counters.get n).source = src
    · have at_event : State.cascade (fuel + 1) below (some n) s = s := by simp [State.cascade, own, hs]
      rw [List.head?_cons, at_event, if_pos own]
      cases hr : (s.counters.get n).running with
      | true =>
        have : s.pulsedAt src below n = true := by simp [State.pulsedAt, own, hr]
        rw [if_pos this]
        exact onward 3 (by omega) hr
      | false =>
        have : s.pulsedAt src below n = false := by simp [State.pulsedAt, hr]
        rw [this, State.pulse, pulseFrom_stopped s 4 n hr]
        exact idle
    · rw [List.head?_cons, State.cascade]
      by_cases reached : (below && (s.counters.get n).running && decide ((s.counters.get n).source = .cascade)) = true
      · have hr : (s.counters.get n).running = true := by simp at reached; exact reached.1.2
        have : s.pulsedAt src below n = true := by simp at reached; simp [State.pulsedAt, reached]
        rw [if_pos reached, pulseFrom_source, if_neg own, if_pos this]
        exact onward fuel (by omega) hr
      · have : ¬s.pulsedAt src below n = true := by
          simp [State.pulsedAt, own] at reached ⊢
          exact fun hr hb => reached hb hr
        rw [if_neg reached, if_neg own, if_neg this]
        exact idle

/-- R158: a source's event is taken counter by counter. -/
theorem State.pulseAll_eq {src : CounterSource} (hs : src ≠ .cascade) :
    s.pulseAll src = State.pulseUp src false (List.finRange 4) s := by
  have rises : risesToLast (List.finRange 4) := ⟨rfl, rfl, rfl, rfl, trivial⟩
  have := State.pulseSources_cascade src hs (List.finRange 4) s 4 false rises (by decide) (by decide)
  rwa [State.cascade_false] at this

/-! ### The bank at an event (R158, R159) -/

theorem countersAt_cons (src : CounterSource) (below : Bool) (n : Fin 4) (l : List (Fin 4)) :
    countersAt src below ((n :: l).map s.counters.get) =
      (if s.pulsedAt src below n then (s.counters.get n).afterPulse else s.counters.get n,
        s.pulsedAt src below n && decide ((s.counters.get n).value = 1)) ::
      countersAt src (s.pulsedAt src below n && decide ((s.counters.get n).value = 1)) (l.map s.counters.get) := rfl

theorem State.running_of_pulsedAt {src : CounterSource} {below : Bool} {n : Fin 4} (h : s.pulsedAt src below n = true) :
    (s.counters.get n).running = true := by
  simp only [State.pulsedAt, Bool.and_eq_true] at h
  exact h.1

/-- A pulse of one counter leaves the others alone. -/
theorem State.pulseOne_other {src : CounterSource} {below : Bool} {n : Fin 4} (h : s.pulsedAt src below n = true)
    {l : List (Fin 4)} (hn : n ∉ l) : l.map (s.pulseOne n).counters.get = l.map s.counters.get := by
  refine List.map_congr_left fun m hm => ?_
  rw [s.pulseOne_counters n (s.running_of_pulsedAt h), Table.get_set_ne]
  exact fun e => hn (e ▸ hm)

theorem State.pulseUp_other (src : CounterSource) {m : Fin 4} {l : List (Fin 4)} (hm : m ∉ l) (below : Bool) :
    (State.pulseUp src below l s).counters.get m = s.counters.get m := by
  induction l generalizing s below with
  | nil => rfl
  | cons n rest ih =>
    have ne := List.ne_of_not_mem_cons hm
    have hm := List.not_mem_of_not_mem_cons hm
    unfold State.pulseUp
    split
    · next h =>
      rw [ih _ hm, s.pulseOne_counters n (s.running_of_pulsedAt h), Table.get_set_ne _ _ (Ne.symm ne)]
    · exact ih s hm false

theorem State.pulseUp_latchedIn (src : CounterSource) (l : List (Fin 4)) (below : Bool) :
    s.LatchedIn (State.pulseUp src below l s) := by
  induction l generalizing s below with
  | nil => exact .refl s
  | cons n rest ih =>
    unfold State.pulseUp
    split
    · exact (s.pulseOne_latchedIn n).trans (ih _ _)
    · exact ih s false

theorem State.pulseUp_counters (src : CounterSource) {l : List (Fin 4)} (hl : l.Nodup) (below : Bool) :
    l.map (State.pulseUp src below l s).counters.get = (countersAt src below (l.map s.counters.get)).map Prod.fst := by
  induction l generalizing s below with
  | nil => rfl
  | cons n rest ih =>
    obtain ⟨hn, hl⟩ := List.nodup_cons.mp hl
    rw [countersAt_cons, List.map_cons, List.map_cons, State.pulseUp]
    cases h : s.pulsedAt src below n with
    | true =>
      simp only [if_true, Bool.true_and]
      rw [ih _ hl, State.pulseUp_other _ _ hn, s.pulseOne_other h hn,
        s.pulseOne_counters n (s.running_of_pulsedAt h), Table.get_set_self]
    | false =>
      simp only [Bool.false_eq_true, if_false, Bool.false_and]
      rw [ih _ hl, State.pulseUp_other _ _ hn]

/-- R159: the events of the counters that underflow are latched. -/
theorem State.pulseUp_latched (src : CounterSource) {l : List (Fin 4)} (hl : l.Nodup) (below : Bool) {j : Nat}
    {m : Fin 4} (hm : l[j]? = some m)
    (hu : ((countersAt src below (l.map s.counters.get)).map Prod.snd)[j]? = some true) :
    (State.pulseUp src below l s).engine.latched.getLsbD (18 + m.val) = true := by
  induction l generalizing s below j with
  | nil => simp at hm
  | cons n rest ih =>
    obtain ⟨hn, hl⟩ := List.nodup_cons.mp hl
    rw [countersAt_cons] at hu
    rw [State.pulseUp]
    cases h : s.pulsedAt src below n with
    | true =>
      simp only [h, if_true, Bool.true_and, List.map_cons] at hu ⊢
      cases j with
      | zero =>
        have hv : (s.counters.get n).value = 1 := by simpa using hu
        have hmn : n = m := by simpa using hm
        subst hmn
        refine State.pulseUp_latchedIn _ _ _ _ _ ?_
        rw [State.pulseOne, if_pos hv]
        exact s.underflowOne_latched n
      | succ j => exact ih _ hl _ hm (by rw [s.pulseOne_other h hn]; exact hu)
    | false =>
      simp only [h, Bool.false_eq_true, if_false, Bool.false_and, List.map_cons] at hu ⊢
      cases j with
      | zero => simp at hu
      | succ j => exact ih s hl _ hm hu

/-- R159: the runner is as before where no counter that underflows has a list. -/
theorem State.pulseUp_runner (src : CounterSource) {l : List (Fin 4)} (hl : l.Nodup) (below : Bool)
    (hp : ∀ (j : Nat) (m : Fin 4), l[j]? = some m →
      ((countersAt src below (l.map s.counters.get)).map Prod.snd)[j]? = some true → (s.counters.get m).action = none) :
    (State.pulseUp src below l s).runner = s.runner := by
  induction l generalizing s below with
  | nil => rfl
  | cons n rest ih =>
    obtain ⟨hn, hl⟩ := List.nodup_cons.mp hl
    rw [countersAt_cons] at hp
    rw [State.pulseUp]
    cases h : s.pulsedAt src below n with
    | true =>
      simp only [h, if_true, Bool.true_and, List.map_cons] at hp ⊢
      have one : (s.pulseOne n).runner = s.runner := by
        unfold State.pulseOne
        split
        · next hv => exact s.underflowOne_runner n (hp 0 n rfl (by simp [hv]))
        · rfl
      rw [ih _ hl, one]
      intro j m hm hu
      have hnm : n ≠ m := fun e => hn (e ▸ List.mem_of_getElem? hm)
      rw [s.pulseOne_counters n (s.running_of_pulsedAt h), Table.get_set_ne _ _ hnm]
      exact hp (j + 1) m hm (by rw [← s.pulseOne_other h hn]; exact hu)
    | false =>
      simp only [h, Bool.false_eq_true, if_false, Bool.false_and, List.map_cons] at hp ⊢
      exact ih s hl _ fun j m hm hu => hp (j + 1) m hm hu

/-- R158, R159: the counters after one event of a source. -/
theorem State.pulseAll_items {src : CounterSource} (hs : src ≠ .cascade) :
    (s.pulseAll src).counters.items = bankAfter src s.counters.items := by
  rw [s.pulseAll_eq hs, Table.items_eq, State.pulseUp_counters _ _ (List.nodup_finRange 4), ← Table.items_eq]
  rfl

/-- R159: each underflow latches its event. -/
theorem State.pulseAll_latched {src : CounterSource} (hs : src ≠ .cascade) {n : Fin 4}
    (h : underflowsAt src s.counters.items n) : (s.pulseAll src).engine.latched.getLsbD (18 + n.val) = true := by
  rw [underflowsAt, Table.items_eq] at h
  rw [s.pulseAll_eq hs]
  exact s.pulseUp_latched src (List.nodup_finRange 4) false (by simp) h

theorem State.pulseAll_latchedIn {src : CounterSource} (hs : src ≠ .cascade) : s.LatchedIn (s.pulseAll src) := by
  rw [s.pulseAll_eq hs]
  exact s.pulseUp_latchedIn _ _ _

/-- R159: with no list pushed the runner is as before. -/
theorem State.pulseAll_runner {src : CounterSource} (hs : src ≠ .cascade)
    (h : ∀ n, ¬pushesAt src s.counters.items n) : (s.pulseAll src).runner = s.runner := by
  rw [s.pulseAll_eq hs]
  refine s.pulseUp_runner src (List.nodup_finRange 4) false fun j m hm hu => ?_
  rw [← Table.items_eq] at hu
  cases ha : (s.counters.get m).action with
  | none => rfl
  | some x => exact absurd ⟨hu, _, x, by rw [Table.items_eq, List.getElem?_map, hm]; rfl, ha⟩ (h j)

/-! ### The alarms at a test (R163) -/

theorem State.alarmReached_iff (n : Fin 4) :
    s.alarmReached n = true ↔ (s.alarms.get n).reachedAt s.time.seconds s.time.ticks.val := by
  simp [State.alarmReached, Alarm.reachedAt]

theorem State.fireAlarm_alarms (n : Fin 4) :
    (s.fireAlarm n).alarms =
      s.alarms.set n { s.alarms.get n with armed := false, fires := (s.alarms.get n).fires + 1 } := by
  simp [State.fireAlarm]

theorem State.fireAlarm_latchedIn (n : Fin 4) : s.LatchedIn (s.fireAlarm n) :=
  State.LatchedIn.trans
    (t := (s.setAlarm n { s.alarms.get n with armed := false, fires := (s.alarms.get n).fires + 1 }).latch .alarmAny)
    (fun _ h => Engine.latch_latched _ h) (State.push?_latchedIn _ _)

theorem State.fireAlarm_latched (n : Fin 4) : (s.fireAlarm n).engine.latched.getLsbD 22 = true :=
  State.push?_latchedIn _ _ _ (State.latch_self _ .alarmAny)

theorem State.fireAlarm_runner (n : Fin 4) (h : (s.alarms.get n).list = none) : (s.fireAlarm n).runner = s.runner := by
  unfold State.fireAlarm
  dsimp only
  rw [h]
  rfl

/-- R163: the alarms of a list tested in order. -/
def State.testAlarms (s : State) (l : List (Fin 4)) : State :=
  l.foldl (fun s n => if s.alarmReached n then s.fireAlarm n else s) s

theorem State.alarmTest_eq : s.alarmTest = s.testAlarms (List.finRange 4) := rfl

/-- R163: the test of one alarm does not move the clock, nor the other alarms. -/
theorem State.alarmReached_fireAlarm {n m : Fin 4} (h : n ≠ m) :
    (s.fireAlarm n).alarmReached m = s.alarmReached m := by
  have time : (s.fireAlarm n).time = s.time := by simp
  unfold State.alarmReached
  rw [s.fireAlarm_alarms, Table.get_set_ne _ _ h, time]

/-- R163: an alarm after the test that finds it reached. -/
def Alarm.fired (a : Alarm) : Alarm := { a with armed := false, fires := a.fires + 1 }

/-- R163: one test says nothing of the tests of the other alarms. -/
theorem State.alarmReached_tested {n m : Fin 4} (h : n ≠ m) :
    let u := if s.alarmReached n then s.fireAlarm n else s
    u.alarmReached m = s.alarmReached m ∧ u.alarms.get m = s.alarms.get m := by
  dsimp only
  split
  · rw [s.fireAlarm_alarms, Table.get_set_ne _ _ h]
    exact ⟨s.alarmReached_fireAlarm h, rfl⟩
  · exact ⟨rfl, rfl⟩

theorem State.testAlarms_latchedIn (l : List (Fin 4)) : s.LatchedIn (s.testAlarms l) :=
  foldl_latchedIn _ (fun b n => by
    split
    · exact b.fireAlarm_latchedIn n
    · exact .refl b) l s

theorem State.testAlarms_other {l : List (Fin 4)} {m : Fin 4} (hm : m ∉ l) :
    (s.testAlarms l).alarms.get m = s.alarms.get m := by
  induction l generalizing s with
  | nil => rfl
  | cons n rest ih =>
    have ne := List.ne_of_not_mem_cons hm
    have hm := List.not_mem_of_not_mem_cons hm
    exact (ih _ hm).trans (s.alarmReached_tested (Ne.symm ne)).2

/-- R163: each alarm of the list that is reached fires, and any other is as before. -/
theorem State.testAlarms_tested {l : List (Fin 4)} (hl : l.Nodup) {m : Fin 4} (hm : m ∈ l) :
    (s.alarmReached m = true → (s.testAlarms l).alarms.get m = (s.alarms.get m).fired ∧
      (s.testAlarms l).engine.latched.getLsbD 22 = true) ∧
    (s.alarmReached m = false → (s.testAlarms l).alarms.get m = s.alarms.get m) := by
  induction l generalizing s with
  | nil => cases hm
  | cons n rest ih =>
    obtain ⟨hn, hl⟩ := List.nodup_cons.mp hl
    have step : s.testAlarms (n :: rest) = (if s.alarmReached n then s.fireAlarm n else s).testAlarms rest := rfl
    rw [step]
    by_cases e : n = m
    · subst e
      rw [State.testAlarms_other _ hn]
      refine ⟨fun h => ?_, fun h => ?_⟩
      · rw [if_pos h, s.fireAlarm_alarms, Table.get_set_self]
        exact ⟨rfl, State.testAlarms_latchedIn _ _ _ (s.fireAlarm_latched n)⟩
      · rw [h]
        rfl
    · obtain ⟨reached, same⟩ := s.alarmReached_tested e
      rw [← reached, ← same]
      exact ih _ hl ((List.mem_cons.mp hm).resolve_left (Ne.symm e))

/-- R163: the runner is as before where no alarm that fires has a list. -/
theorem State.testAlarms_runner {l : List (Fin 4)} (hl : l.Nodup)
    (h : ∀ m ∈ l, s.alarmReached m = true → (s.alarms.get m).list = none) : (s.testAlarms l).runner = s.runner := by
  induction l generalizing s with
  | nil => rfl
  | cons n rest ih =>
    obtain ⟨hn, hl⟩ := List.nodup_cons.mp hl
    have one : (if s.alarmReached n then s.fireAlarm n else s).runner = s.runner := by
      split
      · next hr => exact s.fireAlarm_runner n (h n (.head _) hr)
      · rfl
    refine (ih _ hl fun m hm => ?_).trans one
    obtain ⟨reached, same⟩ := s.alarmReached_tested (n := n) (m := m) fun e => hn (e ▸ hm)
    rw [reached, same]
    exact h m (.tail _ hm)

/-- R163: the test of every alarm, at the second and tick where the clock stands. -/
theorem State.alarmTest_tested : AlarmsTested s s.alarmTest s.time.seconds s.time.ticks.val := by
  rw [s.alarmTest_eq]
  intro n
  obtain ⟨fires, stays⟩ := s.testAlarms_tested (List.nodup_finRange 4) (List.mem_finRange n)
  refine ⟨fun h => fires ((s.alarmReached_iff n).mpr h), fun h => stays ?_⟩
  rwa [← Bool.not_eq_true, s.alarmReached_iff]

theorem State.alarmTest_latchedIn : s.LatchedIn s.alarmTest := s.testAlarms_latchedIn _

theorem State.alarmTest_runner (h : ∀ n, (s.alarms.get n).reachedAt s.time.seconds s.time.ticks.val →
    (s.alarms.get n).list = none) : s.alarmTest.runner = s.runner :=
  s.testAlarms_runner (List.nodup_finRange 4) fun n _ hr => h n ((s.alarmReached_iff n).mp hr)

end Sys2Proof.Machine
end

section
/-! SUPPORT. Proofs: the ports and the Slot Table at a millisecond event (03, 04). -/

namespace Sys2Proof.Machine

variable (s : State)

/-! ### The test for loss, of tables of slots (R58) -/

/-- R58: a slot is lost at a time. -/
def Slot.lostAt (now : Stamp) (sl : Slot) : Bool :=
  decide (sl.state = .opened) && !sl.copyA.alive && !sl.copyB.alive &&
    ((decide (sl.copyA.state = .bad) && decide (sl.copyB.state = .bad)) || decide (0 ≤ diff now sl.stamp))

theorem Slot.lostAt_iff (now : Stamp) (sl : Slot) :
    sl.lostAt now = true ↔
      sl.state = .opened ∧ sl.copyA.state ≠ .good ∧ sl.copyA.state ≠ .filling ∧ sl.copyB.state ≠ .good ∧
        sl.copyB.state ≠ .filling ∧ ((sl.copyA.state = .bad ∧ sl.copyB.state = .bad) ∨ 0 ≤ diff now sl.stamp) := by
  simp [Slot.lostAt, Copy.alive, and_assoc]

theorem Slot.lostAt_free (now : Stamp) : Slot.free.lostAt now = false := rfl

/-- R52, R58: a table with one slot freed and counted as lost. -/
def SlotTable.freed (a : SlotTable) (i : Fin 256) : SlotTable :=
  { a with slots := a.slots.set i Slot.free, counts := { a.counts with lost := a.counts.lost + 1 } }

theorem SlotTable.freed_get (a : SlotTable) (i j : Fin 256) :
    (a.freed i).slots.get j = if i = j then Slot.free else a.slots.get j := Table.get_set ..

theorem State.lossTest_kept {i : Fin 256} (h : s.slotLost i = false) : s.lossTest i = s := by simp [State.lossTest, h]

theorem State.lossTest_port (i : Fin 256) (f : Feed) : (s.lossTest i).port f = s.port f := by
  cases h : s.slotLost i with
  | true => rw [s.lossTest_lost i h]; cases f <;> rfl
  | false => rw [s.lossTest_kept h]

theorem State.lossTest_latchedIn (i : Fin 256) : s.LatchedIn (s.lossTest i) := by
  cases h : s.slotLost i with
  | true => rw [s.lossTest_lost i h]; exact fun _ h => Engine.latch_latched .blockDrop h
  | false => rw [s.lossTest_kept h]; exact .refl s

/-- R58: `t` has the Slot Table `a` after the tests, at a time, of the slots of a list. -/
structure LossTested (now : Stamp) (l : List (Fin 256)) (a : SlotTable) (t : State) : Prop where
  slot : ∀ i, t.slot i = if i ∈ l ∧ (a.slots.get i).lostAt now = true then Slot.free else a.slots.get i
  table : t.slots = { a with
    slots := t.slots.slots
    counts := { a.counts with
      lost := a.counts.lost + BitVec.ofNat 32 (l.countP fun i => (a.slots.get i).lostAt now) } }
  latched : (∃ i ∈ l, (a.slots.get i).lostAt now = true) → t.engine.latched.getLsbD Event.blockDrop.position = true

/-- The count of a list falls by one where the test of one entry becomes false. -/
theorem countP_eq_succ {α : Type} [DecidableEq α] {l : List α} (hl : l.Nodup) {i : α} (hi : i ∈ l)
    {p q : α → Bool} (hp : p i = true) (hq : q i = false)
    (h : ∀ j, j ≠ i → q j = p j) : l.countP p = l.countP q + 1 := by
  have perm := List.perm_cons_erase hi
  have rest : (l.erase i).countP p = (l.erase i).countP q :=
    List.countP_congr fun j hj => by rw [h j fun e => hl.not_mem_erase (e ▸ hj)]
  rw [perm.countP_eq, perm.countP_eq q, List.countP_cons_of_pos hp, List.countP_cons_of_neg (by simp [hq]), rest]

/-- A slot that is lost may be freed and counted before the tests. -/
theorem LossTested.of_freed {now : Stamp} {l : List (Fin 256)} (hl : l.Nodup) {a : SlotTable} {t : State} {i : Fin 256}
    (hi : i ∈ l) (lost : (a.slots.get i).lostAt now = true) (h : LossTested now l (a.freed i) t)
    (latched : t.engine.latched.getLsbD Event.blockDrop.position = true) : LossTested now l a t := by
  have gets := a.freed_get i
  refine ⟨fun j => ?_, ?_, fun _ => latched⟩
  · rw [h.slot, gets]
    by_cases e : i = j
    · subst e
      simp [hi, lost]
    · simp [e]
  · have count := countP_eq_succ (p := fun j => (a.slots.get j).lostAt now)
      (q := fun j => ((a.freed i).slots.get j).lostAt now) hl hi lost (by simp [gets, Slot.lostAt_free])
      fun j hj => by rw [gets, if_neg (Ne.symm hj)]
    rw [h.table, count]
    simp only [SlotTable.freed, BitVec.ofNat_add]
    congr 2
    ac_rfl

/-- The tests of slots that are not lost may be left out. -/
theorem LossTested.of_subset {now : Stamp} {l k : List (Fin 256)} {a : SlotTable} {t : State}
    (count : (l.countP fun i => (a.slots.get i).lostAt now) = k.countP fun i => (a.slots.get i).lostAt now)
    (mem : ∀ i, (a.slots.get i).lostAt now = true → (i ∈ l ↔ i ∈ k)) (h : LossTested now l a t) :
    LossTested now k a t := by
  refine ⟨fun i => ?_, count ▸ h.table, fun ⟨i, hi, lost⟩ => h.latched ⟨i, (mem i lost).mpr hi, lost⟩⟩
  rw [h.slot]
  by_cases lost : (a.slots.get i).lostAt now = true
  · simp [lost, mem i lost]
  · simp [lost]

/-- R58: the tests of a list of slots. -/
theorem State.foldl_lossTest {l : List (Fin 256)} (hl : l.Nodup) :
    LossTested s.now l s.slots (l.foldl State.lossTest s) := by
  induction l generalizing s with
  | nil =>
    refine ⟨fun i => by simp [State.slot], ?_, fun ⟨i, hi, _⟩ => absurd hi (by simp)⟩
    simp
  | cons n rest ih =>
    obtain ⟨hn, hr⟩ := List.nodup_cons.mp hl
    have tests := ih (s.lossTest n) hr
    have now : (s.lossTest n).now = s.now := by simp [State.now]
    rw [now] at tests
    rw [List.foldl_cons]
    have added : ∀ {a : SlotTable} {t : State}, (a.slots.get n).lostAt s.now = false → LossTested s.now rest a t →
        LossTested s.now (n :: rest) a t := fun {a} _ kept => .of_subset (by simp [kept]) fun i lost => by
      have : i ≠ n := fun e => by rw [e, kept] at lost; cases lost
      simp [this]
    cases h : s.slotLost n with
    | true =>
      have latched : (s.lossTest n).engine.latched.getLsbD Event.blockDrop.position = true := by
        rw [s.lossTest_lost n h]
        exact State.latch_self _ .blockDrop
      have freed : (s.lossTest n).slots = s.slots.freed n := by rw [s.lossTest_lost n h]; rfl
      rw [freed] at tests
      exact (added (by simp [SlotTable.freed_get, Slot.lostAt_free]) tests).of_freed hl (.head _) h
        (foldl_latchedIn _ State.lossTest_latchedIn rest _ _ latched)
    | false =>
      rw [s.lossTest_kept h] at tests ⊢
      exact added h tests

theorem openFrom_eq (l : List Slot) (k : Nat) :
    openFrom k l = (l.zipIdx k).filterMap fun x =>
      if x.1.state = .opened then some (Fin.ofNat 256 x.2) else none := by
  induction l generalizing k with
  | nil => rfl
  | cons sl rest ih =>
    rw [List.zipIdx_cons, List.filterMap_cons, openFrom, ih]
    cases sl.state <;> rfl

/-- The OPEN slots in order. -/
theorem State.openSlots_eq :
    s.openSlots = (List.finRange 256).filter fun i => decide ((s.slot i).state = .opened) := by
  have indexed : s.slots.slots.items.zipIdx = (List.finRange 256).map fun i => (s.slot i, i.val) := by
    apply List.ext_getElem
    · simp [s.slots.slots.size_eq]
    · intro i _ _
      simp [State.slot, Table.get]
  rw [State.openSlots, openFrom_eq, indexed, List.filterMap_map, ← List.filterMap_eq_filter]
  congr 1
  funext i
  simp [Option.guard]

/-- R58: the test of every slot, those that are not OPEN included. -/
theorem State.lossTests_tested : LossTested s.now (List.finRange 256) s.slots s.lossTests := by
  have opened : ∀ i, (s.slot i).lostAt s.now = true → (s.slot i).state = .opened := fun i h =>
    ((Slot.lostAt_iff ..).mp h).1
  have nodup : s.openSlots.Nodup := s.openSlots_eq ▸ (List.nodup_finRange 256).filter _
  refine (s.foldl_lossTest nodup).of_subset ?_ fun i lost => ?_
  · rw [s.openSlots_eq, List.countP_filter]
    refine List.countP_congr fun i _ => ?_
    simp only [Bool.and_eq_true, decide_eq_true_eq]
    exact ⟨fun h => h.1, fun h => ⟨h, opened i h⟩⟩
  · simp [s.openSlots_eq, opened i lost]

theorem State.lossTests_latchedIn : s.LatchedIn s.lossTests := foldl_latchedIn _ State.lossTest_latchedIn _ s

theorem State.lossTests_port (f : Feed) : s.lossTests.port f = s.port f :=
  foldl_keeps (State.port · f) _ (fun b a => b.lossTest_port a f) _ s

/-! ### A port at a millisecond event (R47, R48) -/

/-- R47, R48: the port's value is 1 and no TIMING cell forestalls the expiry. -/
def FeedPort.expires (p : FeedPort) : Bool := decide (p.state = .tracking) && !p.forestalled && decide (p.silence = 1)

/-- R47: the port after its silence expiry, a current copy ended as short. -/
def FeedPort.expired (p : FeedPort) : FeedPort :=
  { p with
    state := .lost, silence := 0, current := none
    counts := if p.current.isSome then { p.counts with short := p.counts.short + 1 } else p.counts }

/-- R47, R48: the port after a millisecond event. -/
def FeedPort.paced (p : FeedPort) : FeedPort :=
  if p.state = .tracking then
    if p.forestalled = true then p.later
    else if p.silence = 1 then p.expired
    else { p with silence := p.silence - 1 }
  else p

/-- R53: a report names the block and finds the feed's copy FILLING. -/
def SlotTable.fits (a : SlotTable) (f : Feed) (c : CopyRef) : Bool :=
  let sl := a.slots.get c.slot
  decide (sl.state ≠ .free) && decide (sl.block = c.block) && decide ((sl.copy f).state = .filling)

theorem State.reportFits_eq (f : Feed) (c : CopyRef) : s.reportFits f c = s.slots.fits f c := rfl

/-- R53: a feed's copy of a slot marked BAD with the cells received. -/
def SlotTable.marked (a : SlotTable) (f : Feed) (i : Fin 256) (received : Nat) : SlotTable :=
  { a with slots := a.slots.set i ((a.slots.get i).setCopy f ⟨.bad, received⟩) }

/-- R47, R53: the Slot Table with the copy of a port that expires marked BAD, where the slot expects the report. -/
def SlotTable.reported (a : SlotTable) (f : Feed) (p : FeedPort) : SlotTable :=
  match p.current with
  | some c => if p.expires && a.fits f c then a.marked f c.slot p.received else a
  | none => a

theorem State.reportBad_port (f g : Feed) (c : CopyRef) (n : Nat) : (s.reportBad f c n).port g = s.port g := by
  unfold State.reportBad
  split
  · rw [State.lossTest_port]
    cases g <;> rfl
  · rfl

theorem State.reportBad_latchedIn (f : Feed) (c : CopyRef) (n : Nat) : s.LatchedIn (s.reportBad f c n) := by
  unfold State.reportBad
  split
  · exact fun k h => State.lossTest_latchedIn _ _ k h
  · exact .refl s

/-- R53, R58: a BAD report marks the copy, and frees the slot when it is then lost. -/
theorem State.reportBad_slots (f : Feed) (c : CopyRef) (n : Nat) :
    let a := if s.slots.fits f c then s.slots.marked f c.slot n else s.slots
    (s.reportBad f c n).slots = a ∨
      (∃ i, (a.slots.get i).lostAt s.now = true ∧ (s.reportBad f c n).slots = a.freed i ∧
        (s.reportBad f c n).engine.latched.getLsbD Event.blockDrop.position = true) := by
  dsimp only
  unfold State.reportBad
  rw [s.reportFits_eq]
  split
  · generalize hu : s.setSlot c.slot ((s.slot c.slot).setCopy f ⟨.bad, n⟩) = u
    have marked : u.slots = s.slots.marked f c.slot n := by subst hu; rfl
    have now : u.now = s.now := by subst hu; rfl
    cases h : u.slotLost c.slot with
    | true =>
      refine .inr ⟨c.slot, ?_, ?_, ?_⟩
      · rw [← marked, ← now]
        exact h
      · rw [u.lossTest_lost _ h, ← marked]
        rfl
      · rw [u.lossTest_lost _ h]
        exact State.latch_self _ .blockDrop
    | false => exact .inl ((congrArg State.slots (u.lossTest_kept h)).trans marked)
  · exact .inl rfl

/-- The port and the latch as the silence expiry leaves them, before the report of a current copy. -/
def State.portExpired (s : State) (f : Feed) : State := (s.setPort f (s.port f).expired).latch (lostEvent f)

theorem State.silenceExpires_eq (f : Feed) :
    s.silenceExpires f =
      match (s.port f).current with
      | some c => (s.portExpired f).reportBad f c (s.port f).received
      | none => s.portExpired f := by
  unfold State.silenceExpires State.endShort State.portExpired
  cases h : (s.port f).current with
  | none => cases f <;> simp_all [State.port, State.setPort, State.latch, FeedPort.expired]
  | some c =>
    cases f <;> simp_all [State.endCopy, State.countFeed, State.port, State.setPort, State.latch, FeedPort.expired]

theorem State.portExpired_port (f : Feed) : (s.portExpired f).port f = (s.port f).expired := by cases f <;> rfl

theorem State.portExpired_port_other (f : Feed) : (s.portExpired f).port (otherFeed f) = s.port (otherFeed f) := by
  cases f <;> rfl

theorem State.silenceExpires_port (f : Feed) : (s.silenceExpires f).port f = (s.port f).expired := by
  rw [s.silenceExpires_eq]
  split
  · rw [State.reportBad_port, s.portExpired_port]
  · exact s.portExpired_port f

theorem State.silenceExpires_port_other (f : Feed) :
    (s.silenceExpires f).port (otherFeed f) = s.port (otherFeed f) := by
  rw [s.silenceExpires_eq]
  split
  · rw [State.reportBad_port, s.portExpired_port_other]
  · exact s.portExpired_port_other f

theorem State.portExpired_latchedIn (f : Feed) : s.LatchedIn (s.portExpired f) := fun k h =>
  Engine.latch_latched _ (by rwa [State.setPort_engine])

/-- What the silence expiry latches, its report keeps. -/
theorem State.portExpired_latchedIn_silenceExpires (f : Feed) : (s.portExpired f).LatchedIn (s.silenceExpires f) := by
  rw [s.silenceExpires_eq]
  split
  · exact State.reportBad_latchedIn _ f _ _
  · exact .refl _

theorem State.silenceExpires_latched (f : Feed) :
    (s.silenceExpires f).engine.latched.getLsbD (feedIndex f) = true := by
  have := (s.portExpired_latchedIn_silenceExpires f) _ (State.latch_self _ (lostEvent f))
  cases f <;> exact this

theorem State.feedMillisecond_latchedIn (f : Feed) : s.LatchedIn (s.feedMillisecond f) := by
  unfold State.feedMillisecond
  split
  · split
    · exact State.latchedIn_of_engine (by simp)
    · split
      · exact (s.portExpired_latchedIn f).trans (s.portExpired_latchedIn_silenceExpires f)
      · exact State.latchedIn_of_engine (by simp)
  · exact .refl s

theorem FeedPort.expires_iff (p : FeedPort) :
    p.expires = true ↔ p.state = .tracking ∧ p.forestalled = false ∧ p.silence = 1 := by
  simp [FeedPort.expires, and_assoc]

/-- R47: a millisecond event at a port is the silence expiry where it expires. -/
theorem State.feedMillisecond_expires {f : Feed} (h : (s.port f).expires = true) :
    s.feedMillisecond f = s.silenceExpires f := by
  obtain ⟨tracking, free, one⟩ := (FeedPort.expires_iff _).mp h
  simp [State.feedMillisecond, tracking, free, one]

theorem State.feedMillisecond_port (f : Feed) : (s.feedMillisecond f).port f = (s.port f).paced := by
  unfold State.feedMillisecond FeedPort.paced
  split
  · split
    · exact s.setPort_port f _
    · split
      · exact s.silenceExpires_port f
      · exact s.setPort_port f _
  · rfl

theorem State.feedMillisecond_port_other (f : Feed) :
    (s.feedMillisecond f).port (otherFeed f) = s.port (otherFeed f) := by
  unfold State.feedMillisecond
  split
  · split
    · exact s.setPort_port_other f _
    · split
      · exact s.silenceExpires_port_other f
      · exact s.setPort_port_other f _
  · rfl

/-- R47, R53, R58: at a millisecond event a port leaves the Slot Table with its report made, or with the slot of that
report freed as lost besides. -/
theorem State.feedMillisecond_slots (f : Feed) :
    let a := s.slots.reported f (s.port f)
    (s.feedMillisecond f).slots = a ∨
      (∃ i, (a.slots.get i).lostAt s.now = true ∧ (s.feedMillisecond f).slots = a.freed i ∧
        (s.feedMillisecond f).engine.latched.getLsbD Event.blockDrop.position = true) := by
  dsimp only
  cases h : (s.port f).expires with
  | true =>
    rw [s.feedMillisecond_expires h, s.silenceExpires_eq]
    unfold SlotTable.reported
    cases (s.port f).current with
    | none => exact .inl (by simp [State.portExpired])
    | some c =>
      have := (s.portExpired f).reportBad_slots f c (s.port f).received
      rw [show (s.portExpired f).slots = s.slots by simp [State.portExpired],
        show (s.portExpired f).now = s.now by simp [State.portExpired, State.now]] at this
      simpa only [h, Bool.true_and] using this
  | false =>
    have same : s.slots.reported f (s.port f) = s.slots := by
      unfold SlotTable.reported
      split <;> simp [h]
    refine .inl ?_
    rw [same]
    unfold State.feedMillisecond
    simp only [FeedPort.expires] at h
    split
    · split
      · simp
      · split
        · simp_all
        · simp
    · rfl

/-- A slot that is lost expects no report, so that its being freed comes to the same before a report as after it. -/
theorem SlotTable.reported_freed {now : Stamp} {a : SlotTable} {i : Fin 256} (lost : (a.slots.get i).lostAt now = true)
    (f : Feed) (p : FeedPort) :
    (a.freed i).reported f p = (a.reported f p).freed i ∧ (a.reported f p).slots.get i = a.slots.get i := by
  unfold SlotTable.reported
  cases p.current with
  | none => exact ⟨rfl, rfl⟩
  | some c =>
    dsimp only
    by_cases e : c.slot = i
    · have none : a.fits f c = false := by
        rw [Slot.lostAt_iff] at lost
        cases f <;> simp [SlotTable.fits, Slot.copy, e, lost]
      have none' : (a.freed i).fits f c = false := by simp [SlotTable.fits, e, SlotTable.freed_get, Slot.free]
      simp [none, none']
    · have get : (a.freed i).slots.get c.slot = a.slots.get c.slot := by rw [SlotTable.freed_get, if_neg (Ne.symm e)]
      have same : (a.freed i).fits f c = a.fits f c := by unfold SlotTable.fits; rw [get]
      rw [same]
      split
      · refine ⟨?_, Table.get_set_ne _ _ e⟩
        simp only [SlotTable.marked, get]
        simp only [SlotTable.freed, Table.set_comm _ _ _ e]
      · exact ⟨rfl, rfl⟩

end Sys2Proof.Machine
end

section
/-! SUPPORT. Proofs: the Emitter at a millisecond event, and the whole event (02, 05). -/

namespace Sys2Proof.Machine

variable (s : State)

/-! ### The Emitter at a millisecond event (R87, R88) -/

theorem State.fallbackAllowed_iff :
    s.fallbackAllowed = true ↔ s.emitter.fallbackEnable = true ∧
      (∃ n, s.emitter.fallbackClip = some n ∧ (s.clip n).state = .ready) ∧
      (s.time.state = .locked ∨ s.time.state = .holdover) := by
  unfold State.fallbackAllowed
  cases s.emitter.fallbackClip <;> simp [and_assoc]

/-- The fallback timer at a value. -/
def State.withTimer (s : State) (t : Nat) : State := { s with emitter := { s.emitter with timer := t } }

/-- R87: outside IDLE a millisecond event does nothing at the Emitter. -/
theorem State.emitterMillisecond_busy (h : s.emitter.state ≠ .idle) : s.emitterMillisecond = s := if_neg h

/-- R87: short of the delay the timer gains one. -/
theorem State.emitterMillisecond_waits (h : s.emitter.state = .idle)
    (short : s.emitter.timer + 1 < s.emitter.fallbackDelay) :
    s.emitterMillisecond = s.withTimer (s.emitter.timer + 1) := by
  have : min (s.emitter.timer + 1) s.emitter.fallbackDelay = s.emitter.timer + 1 := by omega
  simp only [State.emitterMillisecond, if_pos h, this, if_neg (Nat.ne_of_lt short)]
  rfl

/-- R87: at the delay the timer stands there, and the conditions of fallback are tested. -/
theorem State.emitterMillisecond_stands (h : s.emitter.state = .idle)
    (stands : s.emitter.fallbackDelay ≤ s.emitter.timer + 1) :
    s.emitterMillisecond =
      if s.fallbackAllowed = true then (s.withTimer s.emitter.fallbackDelay).enterFallback
      else s.withTimer s.emitter.fallbackDelay := by
  simp only [State.emitterMillisecond, if_pos h, Nat.min_eq_right stands]
  rfl

/-- R88: the Emitter in FALLBACK. -/
def Emitter.inFallback (e : Emitter) : Emitter :=
  { e with state := .fallback, counts := { e.counts with fallbackEntries := e.counts.fallbackEntries + 1 } }

/-- R88: channel 8 primed from a clip, before the test for its first fetch. -/
def Channel.primedForFallback (c : Channel) (n : Fin 128) (m : LabelMap) (base : Stamp) : Channel :=
  { c.parkedBy 1 with state := .priming, clips := [n], labelMap := some m, base := base }

/-- R88: the part in FALLBACK, before the test of channel 8 for its first fetch. -/
def State.fallbackPrimed (s : State) (n : Fin 128) : State :=
  (({ s with emitter := s.emitter.inFallback } : State).latch .fallback).setChannel 8
    ((s.channel 8).primedForFallback n s.emitter.fallbackMap s.now)

theorem State.enterFallback_eq {n : Fin 128} (h : s.emitter.fallbackClip = some n) :
    s.enterFallback = (s.fallbackPrimed n).fetchTest 8 := by
  unfold State.enterFallback
  split
  · next none => rw [h] at none; cases none
  · next m some =>
    obtain rfl : n = m := Option.some.inj (h.symm.trans some)
    rfl

/-- R88, R122: all that the entry into FALLBACK does. -/
theorem State.enterFallback_entered {n : Fin 128} (h : s.emitter.fallbackClip = some n) :
    s.enterFallback.emitter = s.emitter.inFallback ∧
    s.enterFallback.engine.latched.getLsbD 12 = true ∧
    FetchTested s s.enterFallback 8 ((s.channel 8).primedForFallback n s.emitter.fallbackMap s.now) ∧
    s.enterFallback.clips = { s.clips with reads := s.enterFallback.clips.reads } ∧
    ∀ k, k ≠ 8 → s.enterFallback.channel k = s.channel k := by
  rw [s.enterFallback_eq h]
  have tested := (s.fallbackPrimed n).fetchTest_tested 8
  rw [show (s.fallbackPrimed n).channel 8 = _ from Table.get_set_self ..] at tested
  refine ⟨by simp [State.fallbackPrimed], ?_, tested, (s.fallbackPrimed n).fetchTest_clips 8, fun k hk => ?_⟩
  · simp only [State.fetchTest_keeps]
    exact State.latch_self _ .fallback
  · exact ((s.fallbackPrimed n).fetchTest_other hk).trans (Table.get_set_ne _ _ (Ne.symm hk))

theorem State.emitterMillisecond_latchedIn : s.LatchedIn s.emitterMillisecond := by
  by_cases h : s.emitter.state = .idle
  · rcases Nat.lt_or_ge (s.emitter.timer + 1) s.emitter.fallbackDelay with short | stands
    · rw [s.emitterMillisecond_waits h short]
      exact State.latchedIn_of_engine rfl
    · rw [s.emitterMillisecond_stands h stands]
      split
      · next allowed =>
        obtain ⟨_, ⟨n, clip, _⟩, _⟩ := s.fallbackAllowed_iff.mp allowed
        rw [State.enterFallback_eq (s.withTimer s.emitter.fallbackDelay) clip]
        intro k hk
        simp only [State.fetchTest_keeps]
        exact Engine.latch_latched .fallback hk
      · exact State.latchedIn_of_engine rfl
  · rw [s.emitterMillisecond_busy h]
    exact .refl s

/-! ### The whole millisecond event (R18) -/

/-- R18: the state in which the Emitter takes a millisecond event. -/
def State.beforeEmitter (s : State) : State := ((s.feedMillisecond .A).feedMillisecond .B).lossTests

theorem State.neighbourMillisecond_eq :
    s.neighbourMillisecond = (s.beforeEmitter.emitterMillisecond.pulseAll .millisecond).alarmTest := rfl

theorem State.beforeEmitter_keeps :
    s.beforeEmitter.emitter = s.emitter ∧ s.beforeEmitter.clips = s.clips ∧ s.beforeEmitter.channels = s.channels ∧
    s.beforeEmitter.time = s.time ∧ s.beforeEmitter.counters = s.counters ∧ s.beforeEmitter.alarms = s.alarms ∧
    s.beforeEmitter.runner = s.runner := by
  simp [State.beforeEmitter]

theorem State.beforeEmitter_latchedIn : (s.beforeEmitter).LatchedIn s.neighbourMillisecond :=
  ((State.emitterMillisecond_latchedIn _).trans (State.pulseAll_latchedIn _ (by decide))).trans
    (State.alarmTest_latchedIn _)

theorem State.feedMillisecond_latchedIn_whole :
    (s.feedMillisecond .A).LatchedIn ((s.feedMillisecond .A).feedMillisecond .B) ∧
    ((s.feedMillisecond .A).feedMillisecond .B).LatchedIn s.neighbourMillisecond :=
  ⟨State.feedMillisecond_latchedIn _ .B, (State.lossTests_latchedIn _).trans s.beforeEmitter_latchedIn⟩

/-- R47: what a millisecond event makes of a port. -/
theorem State.neighbourMillisecond_port (f : Feed) : s.neighbourMillisecond.port f = (s.port f).paced := by
  have after : s.neighbourMillisecond.port f = s.beforeEmitter.port f := by
    cases f <;> simp [State.neighbourMillisecond_eq, State.port]
  rw [after, State.beforeEmitter, State.lossTests_port]
  cases f with
  | A => exact ((s.feedMillisecond .A).feedMillisecond_port_other .B).trans (s.feedMillisecond_port .A)
  | B =>
    rw [State.feedMillisecond_port]
    exact congrArg FeedPort.paced (s.feedMillisecond_port_other .A)

/-- R47: a silence expiry latches the feed's loss. -/
theorem State.neighbourMillisecond_lost {f : Feed} (h : (s.port f).expires = true) :
    s.neighbourMillisecond.engine.latched.getLsbD (feedIndex f) = true := by
  obtain ⟨second, rest⟩ := s.feedMillisecond_latchedIn_whole
  cases f with
  | A =>
    refine rest _ (second _ ?_)
    rw [s.feedMillisecond_expires h]
    exact s.silenceExpires_latched .A
  | B =>
    refine rest _ ?_
    rw [State.feedMillisecond_expires]
    · exact State.silenceExpires_latched _ .B
    · rwa [show (s.feedMillisecond .A).port .B = s.port .B from s.feedMillisecond_port_other .A]

/-- R47, R53: the Slot Table with the reports of both ports. -/
def State.slotsReported (s : State) : SlotTable := (s.slots.reported .A s.portA).reported .B s.portB

/-- What changes no slot and keeps the latch keeps the tests made. -/
theorem LossTested.later {now : Stamp} {l : List (Fin 256)} {a : SlotTable} {t u : State} (h : LossTested now l a t)
    (same : u.slots = t.slots) (latched : t.LatchedIn u) : LossTested now l a u := by
  refine ⟨fun i => ?_, by rw [same]; exact h.table, fun lost => latched _ (h.latched lost)⟩
  rw [State.slot, same]
  exact h.slot i

/-- R58: the Slot Table after a millisecond event is that of both ports' reports with every slot tested. -/
theorem State.neighbourMillisecond_slots :
    LossTested s.now (List.finRange 256) s.slotsReported s.neighbourMillisecond := by
  obtain ⟨second, rest⟩ := s.feedMillisecond_latchedIn_whole
  have nodup := List.nodup_finRange 256
  have ofReport : ∀ {a b : SlotTable}, LossTested s.now (List.finRange 256) a s.neighbourMillisecond →
      (a = b ∨ ∃ i, (b.slots.get i).lostAt s.now = true ∧ a = b.freed i ∧
        s.neighbourMillisecond.engine.latched.getLsbD Event.blockDrop.position = true) →
      LossTested s.now (List.finRange 256) b s.neighbourMillisecond := by
    rintro a b tested (rfl | ⟨i, lost, rfl, latched⟩)
    · exact tested
    · exact tested.of_freed nodup (List.mem_finRange i) lost latched
  have final : LossTested s.now (List.finRange 256) ((s.feedMillisecond .A).feedMillisecond .B).slots
      s.neighbourMillisecond := by
    have now : ((s.feedMillisecond .A).feedMillisecond .B).now = s.now := by simp [State.now]
    have tested := State.lossTests_tested ((s.feedMillisecond .A).feedMillisecond .B)
    rw [now] at tested
    exact tested.later (by simp [State.neighbourMillisecond_eq, State.beforeEmitter]) s.beforeEmitter_latchedIn
  have ofB := ofReport final (b := (s.feedMillisecond .A).slots.reported .B s.portB) (by
    have := (s.feedMillisecond .A).feedMillisecond_slots .B
    rw [show (s.feedMillisecond .A).port .B = s.portB from s.feedMillisecond_port_other .A,
      show (s.feedMillisecond .A).now = s.now by simp [State.now]] at this
    exact this.imp id fun ⟨i, lost, freed, latched⟩ => ⟨i, lost, freed, rest _ latched⟩)
  refine ofReport ofB ?_
  rcases s.feedMillisecond_slots .A with same | ⟨i, lost, freed, latched⟩
  · exact .inl (by rw [same]; rfl)
  · obtain ⟨swapped, kept⟩ := SlotTable.reported_freed lost .B s.portB
    exact .inr ⟨i, by rw [State.slotsReported]; exact kept.symm ▸ lost, by rw [freed, swapped]; rfl,
      rest _ (second _ latched)⟩

theorem State.alarmTest_counters : s.alarmTest.counters = s.counters := by simp

theorem State.neighbourMillisecond_counters :
    s.neighbourMillisecond.counters.items = bankAfter .millisecond s.counters.items := by
  rw [s.neighbourMillisecond_eq, State.alarmTest_counters, State.pulseAll_items _ (by decide)]
  simp [State.beforeEmitter]

theorem State.neighbourMillisecond_underflows {n : Fin 4} (h : underflowsAt .millisecond s.counters.items n) :
    s.neighbourMillisecond.engine.latched.getLsbD (18 + n.val) = true := by
  rw [s.neighbourMillisecond_eq]
  refine State.alarmTest_latchedIn _ _ (State.pulseAll_latched _ (by decide) ?_)
  simpa [State.beforeEmitter] using h

theorem AlarmsTested.of_alarms {s u t : State} {second : Word} {tick : Nat} (h : AlarmsTested u t second tick)
    (same : u.alarms = s.alarms) : AlarmsTested s t second tick := by
  unfold AlarmsTested at h ⊢
  rw [← same]
  exact h

theorem State.neighbourMillisecond_alarms :
    AlarmsTested s s.neighbourMillisecond s.time.seconds s.time.ticks.val := by
  rw [s.neighbourMillisecond_eq]
  generalize hu : s.beforeEmitter.emitterMillisecond.pulseAll .millisecond = u
  have same : u.alarms = s.alarms ∧ u.time = s.time := by
    subst hu
    simp [State.beforeEmitter]
  rw [← same.2]
  exact u.alarmTest_tested.of_alarms same.1

/-- R159, R163: with no list pushed the runner is as before. -/
theorem State.neighbourMillisecond_runner
    (h : NothingPushed s s.time.seconds s.time.ticks.val s.counters.items) :
    s.neighbourMillisecond.runner = s.runner := by
  obtain ⟨counters, alarms⟩ := h
  rw [s.neighbourMillisecond_eq, State.alarmTest_runner, State.pulseAll_runner _ (by decide)]
  · simp [State.beforeEmitter]
  · simpa [State.beforeEmitter] using counters
  · simpa [State.beforeEmitter] using alarms

theorem State.neighbourMillisecond_emitter :
    s.neighbourMillisecond.emitter = s.beforeEmitter.emitterMillisecond.emitter ∧
    s.neighbourMillisecond.channels = s.beforeEmitter.emitterMillisecond.channels ∧
    s.neighbourMillisecond.clips = s.beforeEmitter.emitterMillisecond.clips ∧
    s.beforeEmitter.emitterMillisecond.LatchedIn s.neighbourMillisecond := by
  refine ⟨?_, ?_, ?_, (State.pulseAll_latchedIn _ (by decide)).trans (State.alarmTest_latchedIn _)⟩ <;>
    simp [State.neighbourMillisecond_eq]

/-- R87, R88: what a millisecond event does at the Emitter, the channels and the Clip Store. -/
theorem State.neighbourMillisecond_waits (h : s.emitter.state = .idle)
    (short : s.emitter.timer + 1 < s.emitter.fallbackDelay) :
    s.neighbourMillisecond.emitter = { s.emitter with timer := s.emitter.timer + 1 } ∧
    s.neighbourMillisecond.channels = s.channels ∧ s.neighbourMillisecond.clips = s.clips := by
  obtain ⟨emitter, channels, clips, _⟩ := s.neighbourMillisecond_emitter
  obtain ⟨emitter', clips', channels', _⟩ := s.beforeEmitter_keeps
  rw [emitter, channels, clips, State.emitterMillisecond_waits _ (emitter' ▸ h) (emitter' ▸ short)]
  exact ⟨by rw [← emitter']; rfl, channels', clips'⟩

theorem State.beforeEmitter_fallbackAllowed : s.beforeEmitter.fallbackAllowed = s.fallbackAllowed := by
  obtain ⟨emitter, clips, _, time, _⟩ := s.beforeEmitter_keeps
  rw [Bool.eq_iff_iff, State.fallbackAllowed_iff, State.fallbackAllowed_iff]
  simp only [State.clip, emitter, clips, time]

theorem State.neighbourMillisecond_stands (h : s.emitter.state = .idle)
    (stands : s.emitter.fallbackDelay ≤ s.emitter.timer + 1) (refused : s.fallbackAllowed = false) :
    s.neighbourMillisecond.emitter = { s.emitter with timer := s.emitter.fallbackDelay } ∧
    s.neighbourMillisecond.channels = s.channels ∧ s.neighbourMillisecond.clips = s.clips := by
  obtain ⟨emitter, channels, clips, _⟩ := s.neighbourMillisecond_emitter
  obtain ⟨emitter', clips', channels', _⟩ := s.beforeEmitter_keeps
  rw [emitter, channels, clips, State.emitterMillisecond_stands _ (emitter' ▸ h) (emitter' ▸ stands),
    s.beforeEmitter_fallbackAllowed, refused]
  exact ⟨by rw [← emitter']; rfl, channels', clips'⟩

theorem State.neighbourMillisecond_busy (h : s.emitter.state ≠ .idle) :
    s.neighbourMillisecond.emitter = s.emitter ∧
    s.neighbourMillisecond.channels = s.channels ∧ s.neighbourMillisecond.clips = s.clips := by
  obtain ⟨emitter, channels, clips, _⟩ := s.neighbourMillisecond_emitter
  obtain ⟨emitter', clips', channels', _⟩ := s.beforeEmitter_keeps
  rw [emitter, channels, clips, State.emitterMillisecond_busy _ (emitter' ▸ h)]
  exact ⟨emitter', channels', clips'⟩

/-- R87: where fallback does not begin, the channels and the Clip Store are as before. -/
theorem State.neighbourMillisecond_still
    (h : ¬(s.emitter.state = .idle ∧ s.emitter.fallbackDelay ≤ s.emitter.timer + 1 ∧ s.fallbackAllowed = true)) :
    s.neighbourMillisecond.channels = s.channels ∧ s.neighbourMillisecond.clips = s.clips := by
  by_cases idle : s.emitter.state = .idle
  · rcases Nat.lt_or_ge (s.emitter.timer + 1) s.emitter.fallbackDelay with short | stands
    · exact (s.neighbourMillisecond_waits idle short).2
    · have refused : s.fallbackAllowed = false := Bool.eq_false_iff.mpr fun allowed => h ⟨idle, stands, allowed⟩
      exact (s.neighbourMillisecond_stands idle stands refused).2
  · exact (s.neighbourMillisecond_busy idle).2

/-- R122: a test for a fetch speaks of the directory and the reads before, and of the channels and the reads after. -/
theorem FetchTested.of_parts {s u t w : State} {n : Fin 9} {c : Channel} (h : FetchTested u w n c)
    (clips : u.clips = s.clips) (after : w.clips = t.clips) (channels : w.channels = t.channels) :
    FetchTested s t n c := by
  unfold FetchTested State.clip State.channel at h ⊢
  rw [← clips, ← after, ← channels]
  exact h

theorem State.neighbourMillisecond_fallback {n : Fin 128} (h : s.emitter.state = .idle)
    (stands : s.emitter.fallbackDelay ≤ s.emitter.timer + 1) (allowed : s.fallbackAllowed = true)
    (clip : s.emitter.fallbackClip = some n) :
    s.neighbourMillisecond.emitter =
      { s.emitter with
        state := .fallback, timer := s.emitter.fallbackDelay
        counts := { s.emitter.counts with fallbackEntries := s.emitter.counts.fallbackEntries + 1 } } ∧
    s.neighbourMillisecond.engine.latched.getLsbD 12 = true ∧
    FetchTested s s.neighbourMillisecond 8 ((s.channel 8).primedForFallback n s.emitter.fallbackMap s.now) ∧
    s.neighbourMillisecond.clips = { s.clips with reads := s.neighbourMillisecond.clips.reads } ∧
    ∀ k, k ≠ 8 → s.neighbourMillisecond.channel k = s.channel k := by
  obtain ⟨emitter, channels, clips, later⟩ := s.neighbourMillisecond_emitter
  obtain ⟨emitter', clips', channels', time', _⟩ := s.beforeEmitter_keeps
  generalize hu : s.beforeEmitter.withTimer s.emitter.fallbackDelay = u
  have entered : s.beforeEmitter.emitterMillisecond = u.enterFallback := by
    rw [State.emitterMillisecond_stands _ (emitter' ▸ h) (emitter' ▸ stands), s.beforeEmitter_fallbackAllowed,
      if_pos allowed, emitter', hu]
  have uclips : u.clips = s.clips := by subst hu; exact clips'
  have uchannels : u.channels = s.channels := by subst hu; exact channels'
  have uemitter : u.emitter = { s.emitter with timer := s.emitter.fallbackDelay } := by
    subst hu
    rw [← emitter']
    rfl
  have unow : u.now = s.now := by
    subst hu
    exact congrArg SiteTime.now time'
  rw [entered] at emitter channels clips later
  obtain ⟨fallback, latched, tested, store, others⟩ := u.enterFallback_entered (n := n) (by rw [uemitter]; exact clip)
  refine ⟨by rw [emitter, fallback, uemitter]; rfl, later _ latched, ?_, ?_, fun k hk => ?_⟩
  · have := tested.of_parts uclips clips.symm channels.symm
    rwa [State.channel, uchannels, uemitter, unow] at this
  · rw [clips, ← uclips]
    exact store
  · have := others k hk
    rwa [State.channel, State.channel, ← channels, uchannels] at this

end Sys2Proof.Machine
end

section
/-! SUPPORT. Proofs: a part brought to a tick, and the work of the millisecond event there (02). -/

namespace Sys2Proof.Machine

/-! ### The work of a millisecond event (R18) -/

/-- `v` is `s` brought to the tick of a millisecond event: the ports' notes of a TIMING cell stay only where the clock
stood at the tick before (R48), and of the rest only what the event does not ask of `s` may differ. -/
structure BroughtToTick (s v : State) (here : Bool) : Prop where
  port : ∀ f, v.port f = { s.port f with forestalled := (s.port f).forestalled && here }
  slots : v.slots = s.slots
  emitter : v.emitter = s.emitter
  clips : v.clips = s.clips
  channels : v.channels = s.channels
  alarms : v.alarms = s.alarms
  timeState : v.time.state = s.time.state
  out : v.out = s.out
  delay : v.delay = s.delay
  splice : v.splice = s.splice
  feeds : v.feeds = s.feeds
  pins : v.pins = s.pins

section

variable {s v : State} {here : Bool}

/-- R47, R48: the port expires where its value is 1 and no TIMING cell of the very tick forestalls it. -/
theorem BroughtToTick.expires_iff (h : BroughtToTick s v here) (f : Feed) :
    (v.port f).expires = true ↔
      (s.port f).state = .tracking ∧ ¬(here = true ∧ (s.port f).forestalled = true) ∧ (s.port f).silence = 1 := by
  rw [FeedPort.expires_iff, h.port]
  cases here <;> simp

/-- R47, R48: the four things a millisecond event can do at a port. -/
theorem BroughtToTick.port_paced (h : BroughtToTick s v here) (f : Feed) :
    ((v.port f).expires = true → (v.port f).paced = { s.port f with
      state := .lost, silence := 0, current := none, forestalled := false
      counts := if (s.port f).current.isSome then { (s.port f).counts with short := (s.port f).counts.short + 1 }
        else (s.port f).counts }) ∧
    ((s.port f).state = .tracking → ¬(here = true ∧ (s.port f).forestalled = true) → (s.port f).silence ≠ 1 →
      (v.port f).paced = { s.port f with silence := (s.port f).silence - 1, forestalled := false }) ∧
    ((s.port f).state = .tracking → here = true ∧ (s.port f).forestalled = true →
      (v.port f).paced = { s.port f with forestalled := false }) ∧
    ((s.port f).state ≠ .tracking →
      (v.port f).paced = { s.port f with forestalled := (s.port f).forestalled && here }) := by
  have note : ¬(here = true ∧ (s.port f).forestalled = true) → ((s.port f).forestalled && here) = false := by
    cases here <;> simp
  refine ⟨fun expires => ?_, fun tracking free silence => ?_, fun tracking ⟨at_tick, kept⟩ => ?_, fun other => ?_⟩
  · obtain ⟨tracking, free, silence⟩ := (h.expires_iff f).mp expires
    simp [FeedPort.paced, FeedPort.expired, h.port, tracking, silence, note free]
  · simp [FeedPort.paced, h.port, tracking, silence, note free]
  · simp [FeedPort.paced, FeedPort.later, h.port, tracking, at_tick, kept]
  · simp [FeedPort.paced, h.port, other]

end

/-- R47, R53: the copy a feed has in a slot once the report of its port is made, where the port expires. -/
def SlotTable.copyEnded (a : SlotTable) (f : Feed) (p : FeedPort) (i : Fin 256) : Copy :=
  match p.current with
  | some r => if p.expires = true ∧ r.slot = i ∧ a.fits f r = true then ⟨.bad, p.received⟩ else (a.slots.get i).copy f
  | none => (a.slots.get i).copy f

theorem SlotTable.reported_get (a : SlotTable) (f : Feed) (p : FeedPort) (i : Fin 256) :
    (a.reported f p).slots.get i = (a.slots.get i).setCopy f (a.copyEnded f p i) := by
  have same : (a.slots.get i).setCopy f ((a.slots.get i).copy f) = a.slots.get i := by cases f <;> rfl
  unfold SlotTable.reported SlotTable.copyEnded
  cases p.current with
  | none => exact same.symm
  | some c =>
    dsimp only
    by_cases e : c.slot = i
    · subst e
      by_cases made : p.expires = true ∧ a.fits f c = true
      · simp [made, SlotTable.marked]
      · have : (p.expires && a.fits f c) = false := by simpa using made
        simp [this, made, same]
    · simp only [e, false_and, and_false, if_false, same]
      split
      · exact Table.get_set_ne _ _ e
      · rfl

/-- R53: feed A's report does not bear on whether a slot expects feed B's. -/
theorem SlotTable.reported_fits (a : SlotTable) (p : FeedPort) (c : CopyRef) :
    (a.reported .A p).fits .B c = a.fits .B c := by
  unfold SlotTable.fits
  rw [a.reported_get]
  rfl

/-- R47, R53: each slot with both feeds' copies as the reports of the event leave them. -/
theorem State.slotsReported_get (s : State) (i : Fin 256) :
    s.slotsReported.slots.get i =
      { s.slot i with copyA := s.slots.copyEnded .A s.portA i, copyB := s.slots.copyEnded .B s.portB i } := by
  have second : (s.slots.reported .A s.portA).copyEnded .B s.portB i = s.slots.copyEnded .B s.portB i := by
    have copy : ((s.slots.reported .A s.portA).slots.get i).copy .B = (s.slots.slots.get i).copy .B := by
      rw [SlotTable.reported_get]
      rfl
    simp only [SlotTable.copyEnded, SlotTable.reported_fits, copy]
  rw [State.slotsReported, SlotTable.reported_get, second, SlotTable.reported_get]
  rfl

/-- The reports leave the queue, the counts and the settings of the Slot Table alone. -/
theorem SlotTable.reported_rest (a : SlotTable) (f : Feed) (p : FeedPort) :
    a.reported f p = { a with slots := (a.reported f p).slots } := by
  unfold SlotTable.reported
  split
  · split <;> rfl
  · rfl

theorem State.slotsReported_rest (s : State) : s.slotsReported = { s.slots with slots := s.slotsReported.slots } := by
  rw [State.slotsReported, SlotTable.reported_rest, SlotTable.reported_rest s.slots]

/-- R18: the event at a tick does the whole of `MillisecondWork`, asked of the part before it came to the tick. -/
theorem BroughtToTick.work {s v : State} {here : Bool} (h : BroughtToTick s v here) :
    MillisecondWork s v.neighbourMillisecond v.time.seconds v.time.ticks.val here v.counters.items := by
  unfold MillisecondWork
  intro now atOnce expires ended settled lost allowed waits stands
  have expiresIff : ∀ f, (v.port f).expires = true ↔ expires f := h.expires_iff
  have settledEq : ∀ i, v.slotsReported.slots.get i = settled i := fun i => by
    have copies : ∀ f, v.slots.copyEnded f (v.port f) i = ended f i := fun f => by
      simp only [SlotTable.copyEnded, expiresIff, h.slots]
      rw [h.port]
      rfl
    rw [v.slotsReported_get, State.slot, h.slots]
    have copyA : s.slots.copyEnded .A v.portA i = ended .A i := h.slots ▸ copies .A
    have copyB : s.slots.copyEnded .B v.portB i = ended .B i := h.slots ▸ copies .B
    rw [copyA, copyB]
    rfl
  have lostIff : ∀ i, (v.slotsReported.slots.get i).lostAt v.now = true ↔ lost i := fun i => by
    rw [Slot.lostAt_iff, settledEq]
    rfl
  have allowedIff : v.fallbackAllowed = true ↔ allowed := by
    rw [v.fallbackAllowed_iff, h.emitter, h.timeState]
    unfold State.clip
    rw [h.clips]
    rfl
  obtain ⟨slotTested, table, latched⟩ := v.neighbourMillisecond_slots
  have count : ((List.finRange 256).countP fun i => (v.slotsReported.slots.get i).lostAt v.now) =
      (List.finRange 256).countP fun i => decide (lost i) :=
    List.countP_congr fun i _ => (lostIff i).trans decide_eq_true_iff.symm
  refine ⟨fun f => ?_, fun i => ?_, ?_, fun ⟨i, hi⟩ => latched ⟨i, List.mem_finRange i, (lostIff i).mpr hi⟩,
    v.neighbourMillisecond_counters, fun n => v.neighbourMillisecond_underflows,
    v.neighbourMillisecond_alarms.of_alarms h.alarms, fun ⟨idle, short⟩ => ?_, fun ⟨idle, reached⟩ refused => ?_,
    fun busy => ?_, fun no => ?_, fun ⟨idle, reached⟩ yes n clip => ?_, ?_⟩
  · rw [v.neighbourMillisecond_port]
    obtain ⟨expired, paced, kept, idle⟩ := h.port_paced f
    refine ⟨fun e => ?_, paced, kept, idle⟩
    rw [← expiresIff] at e
    exact ⟨expired e, v.neighbourMillisecond_lost e⟩
  · rw [slotTested]
    exact ⟨fun l => if_pos ⟨List.mem_finRange i, (lostIff i).mpr l⟩,
      fun l => (if_neg fun k => l ((lostIff i).mp k.2)).trans (settledEq i)⟩
  · rw [table, count, v.slotsReported_rest, h.slots]
  · rw [(v.neighbourMillisecond_waits (h.emitter ▸ idle) (h.emitter ▸ short)).1, h.emitter]
  · rw [(v.neighbourMillisecond_stands (h.emitter ▸ idle) (h.emitter ▸ reached)
      (Bool.eq_false_iff.mpr fun a => refused (allowedIff.mp a))).1, h.emitter]
  · rw [(v.neighbourMillisecond_busy (h.emitter ▸ busy)).1, h.emitter]
  · rw [← h.channels, ← h.clips]
    refine v.neighbourMillisecond_still fun ⟨idle, reached, yes⟩ => no ⟨?_, allowedIff.mp yes⟩
    rw [h.emitter] at idle reached
    exact ⟨idle, reached⟩
  · obtain ⟨emitter, fallback, tested, clips, channels⟩ := v.neighbourMillisecond_fallback (h.emitter ▸ idle)
      (h.emitter ▸ reached) (allowedIff.mpr yes) (h.emitter ▸ clip)
    rw [h.emitter] at emitter tested
    rw [State.channel, h.channels] at tested
    rw [h.clips] at clips
    refine ⟨emitter, fallback, tested.of_parts h.clips rfl rfl, clips, fun k hk => (channels k hk).trans ?_⟩
    rw [State.channel, h.channels]
    rfl
  · rw [← h.out, ← h.delay, ← h.clips, ← h.splice, ← h.feeds, ← h.pins]
    simp

end Sys2Proof.Machine
end

section
/-! SUPPORT. Proofs: a count within a millisecond, and MILLISECOND_EVENT (02). -/

namespace Sys2Proof.Machine

variable {s : State}

/-! ### A count within a millisecond (R17, R18, R23) -/

theorem SiteTime.nextMillisecond_eq (t : SiteTime) : t.nextMillisecond = (t.ticks.val / 10000 + 1) * 10000 := rfl

theorem SiteTime.windowOpens_eq (t : SiteTime) : t.windowOpens = 10000000 - t.window := rfl

/-- R17: a count to a tick ahead in the present second reaches it. -/
theorem State.passTo_ticks {k : Nat} (ahead : s.time.ticks.val < k) (inSecond : k < 10000000) :
    (s.passTo k).time.ticks.val = k := by
  rw [State.passTo, dif_pos ⟨ahead, inSecond⟩]

/-- R18: the event of a tick reached by counting is due where the tick is a multiple of 10,000. -/
theorem State.passTo_eventDue {k : Nat} (ahead : s.time.ticks.val < k) (inSecond : k < 10000000) :
    (s.passTo k).eventDue = decide (k % 10000 = 0) := by
  rw [State.passTo, dif_pos ⟨ahead, inSecond⟩]
  rfl

theorem State.passTo_here (k : Nat) (h : s.time.ticks.val = k) : s.passTo k = s :=
  dif_neg fun a => Nat.ne_of_lt a.1 h

/-- R23: no place of the mark window where it opens lies on a count to `k`. -/
theorem State.openTest_short {k : Nat} (h : k < s.time.windowOpens) : s.openTest k = s :=
  if_neg fun a => Nat.not_le.mpr h a.2

/-- R17: a count to a tick of the present millisecond, short of the window's opening, that meets no missed mark. -/
theorem State.countTo_near {k : Nat} (undue : s.eventDue = false) (ahead : s.time.ticks.val < k)
    (inSecond : k < 10000000) (near : k ≤ s.time.nextMillisecond) (short : k < s.time.windowOpens)
    (seen : s.time.markSeen = true ∨ s.time.window < s.time.ticks.val) : s.countTo k = s.passTo k := by
  have settled : s.settleEvent = s := by simp [State.settleEvent, undue]
  have missed : s.missTest k = s := if_neg fun ⟨before, _, unseen⟩ => by
    rcases seen with h | h
    · rw [h] at unseen
      cases unseen
    · omega
  rw [State.countTo, if_pos ⟨ahead, inSecond⟩, settled, missed, s.passMultiples_near _ near, State.openTest_short short]

/-- R23: the part at the end of the mark window, where a mark is missed. -/
def State.markMissed (s : State) : State := (s.passTo (s.time.window + 1)).missMark

theorem State.markMissed_time (before : s.time.ticks.val ≤ s.time.window) (w : s.time.window < 9999999) :
    s.markMissed.time.ticks.val = s.time.window + 1 ∧ s.markMissed.time.window = s.time.window := by
  rw [State.markMissed]
  simp only [State.missMark_keeps, State.passTo_keeps, and_true]
  exact State.passTo_ticks (by omega) (by omega)

theorem State.markMissed_undue (before : s.time.ticks.val ≤ s.time.window) (w : s.time.window ≤ 5000) :
    s.markMissed.eventDue = false := by
  rw [State.markMissed]
  simp only [State.missMark_keeps]
  rw [State.passTo_eventDue (by omega) (by omega)]
  exact decide_eq_false (by omega)

/-- R23: a count in the first millisecond that meets the missed mark takes it, and goes on from there. -/
theorem State.countTo_missed {k : Nat} (undue : s.eventDue = false) (unseen : s.time.markSeen = false)
    (before : s.time.ticks.val ≤ s.time.window) (w : s.time.window ≤ 5000) (past : s.time.window < k)
    (near : k ≤ 10000) :
    s.countTo k = s.markMissed.passTo k := by
  have settled : s.settleEvent = s := by simp [State.settleEvent, undue]
  have missed : s.missTest k = s.markMissed := if_pos ⟨by omega, past, unseen⟩
  obtain ⟨ticks, window⟩ := State.markMissed_time before (by omega)
  rw [State.countTo, if_pos ⟨by omega, show k < 10000000 by omega⟩, settled, missed, State.passMultiples_near,
    State.openTest_short]
  · rw [SiteTime.windowOpens_eq]
    omega
  · rw [SiteTime.nextMillisecond_eq]
    omega

/-! ### MILLISECOND_EVENT (R18) -/

theorem exec_millisecondEvent (s : State) : exec .millisecondEvent s = execMillisecondEvent s := rfl

theorem exec_secondBoundary (s : State) : exec .secondBoundary s = execSecondBoundary s := rfl

theorem exec_missedMark (s : State) : exec .missedMark s = execMissedMark s := rfl

theorem State.issueEvent_zero (h : s.time.ticks.val = 0) : s.issueEvent = s.boundary := if_pos h

theorem State.issueEvent_other (h : s.time.ticks.val ≠ 0) : s.issueEvent = s.takeEvent.neighbourMillisecond := if_neg h

/-- R18: with no event due the row counts to the next multiple and issues its event. -/
theorem execMillisecondEvent_undue (undue : s.eventDue = false) (inSecond : s.time.nextMillisecond < 10000000) :
    execMillisecondEvent s = .next (s.countTo s.time.nextMillisecond).issueEvent := by
  rw [execMillisecondEvent, if_neg (by simp [undue]), State.countMillisecond]
  exact congrArg _ (congrArg State.issueEvent (if_pos inSecond))

/-- R17, R18: at tick 0, and in the last millisecond of a second, the row does what SECOND_BOUNDARY does. -/
theorem execMillisecondEvent_wrap
    (h : (s.eventDue = true ∧ s.time.ticks.val = 0) ∨ (s.eventDue = false ∧ 10000000 ≤ s.time.nextMillisecond)) :
    execMillisecondEvent s = execSecondBoundary s := by
  rcases h with ⟨due, zero⟩ | ⟨undue, last⟩
  · rw [execMillisecondEvent, execSecondBoundary, if_pos due, if_pos ⟨due, zero⟩, State.issueEvent_zero zero]
  · have counted : s.countMillisecond = s.countOut.wrapCount := if_neg (Nat.not_lt.mpr last)
    have settled : s.settleEvent = s := by simp [State.settleEvent, undue]
    rw [execMillisecondEvent, execSecondBoundary, if_neg (by simp [undue]), if_neg (by simp [undue]), counted, settled]
    exact congrArg _ (State.issueEvent_zero rfl)

/-- R23: before the end of the mark window, with mark seen no, the row does what it does after MISSED_MARK. -/
theorem execMillisecondEvent_missedMark (undue : s.eventDue = false) (unseen : s.time.markSeen = false)
    (before : s.time.ticks.val ≤ s.time.window) (w : s.time.window ≤ 5000) {u : State}
    (h : execMissedMark s = .next u) :
    execMillisecondEvent s = execMillisecondEvent u := by
  obtain ⟨ticks, window⟩ := State.markMissed_time before (by omega)
  obtain rfl : s.markMissed = u := by
    rw [execMissedMark, if_pos unseen, State.countTo_missed undue unseen before w (by omega) (by omega),
      State.passTo_here _ ticks] at h
    exact Host.Outcome.next.inj h
  have first : s.time.nextMillisecond = 10000 ∧ s.markMissed.time.nextMillisecond = 10000 := by
    rw [SiteTime.nextMillisecond_eq, SiteTime.nextMillisecond_eq]
    omega
  have undue' := State.markMissed_undue before w
  rw [execMillisecondEvent_undue undue (by omega), execMillisecondEvent_undue undue' (by omega), first.1, first.2,
    State.countTo_missed undue unseen before w (by omega) (by omega),
    State.countTo_near undue' (by omega) (by omega) (by omega) _ (.inr (by omega))]
  rw [SiteTime.windowOpens_eq]
  omega

/-- R180: of the Management Engine a millisecond event changes the latch and the new set alone. -/
theorem State.neighbourMillisecond_engine (s : State) :
    s.neighbourMillisecond.engine = { s.engine with
      latched := s.neighbourMillisecond.engine.latched, fresh := s.neighbourMillisecond.engine.fresh } := by
  have keeps := s.neighbourMillisecond_keeps
  generalize s.neighbourMillisecond = t at keeps
  cases ht : t.engine
  simp_all

/-- R18: the blocks that take a millisecond event. -/
theorem State.neighbourMillisecond_frame (s : State) :
    let t := s.neighbourMillisecond
    t = { s with
      portA := t.portA, portB := t.portB, slots := t.slots, emitter := t.emitter, engine := t.engine, clips := t.clips
      channels := t.channels, counters := t.counters, alarms := t.alarms, runner := t.runner } := by
  apply State.eq_of_fields <;> simp

/-- R18: a part whose event is due stands at its tick. -/
theorem State.takeEvent_broughtToTick (s : State) : BroughtToTick s s.takeEvent true := by
  refine ⟨fun f => ?_, rfl, rfl, rfl, rfl, rfl, rfl, rfl, rfl, rfl, rfl, rfl⟩
  rw [Bool.and_true]
  cases f <;> rfl

/-- R18, R48: a part counted up to a tick ahead has dropped its ports' notes. -/
theorem State.passTo_broughtToTick {k : Nat} (ahead : s.time.ticks.val < k) (inSecond : k < 10000000) :
    BroughtToTick s (s.passTo k).takeEvent false := by
  rw [State.passTo, dif_pos ⟨ahead, inSecond⟩]
  refine ⟨fun f => ?_, rfl, rfl, rfl, rfl, rfl, rfl, rfl, rfl, rfl, rfl, rfl⟩
  rw [Bool.and_false]
  cases f <;> rfl

/-- The tick of the millisecond event that comes next: that of the present tick where it is due. -/
def State.eventTick (s : State) : Nat := if s.eventDue = true then s.time.ticks.val else s.time.nextMillisecond

/-- R18: short of the wrap, and with no mark missed on the way, the row brings the part to the tick of the event, at
which the neighbours take it; no field but the clock, the ports' notes and `eventDue` has changed before. -/
theorem execMillisecondEvent_broughtToTick (low : 1 ≤ s.time.window) (high : s.time.window ≤ 5000)
    (h : (s.eventDue = true ∧ s.time.ticks.val ≠ 0) ∨
      (s.eventDue = false ∧ s.time.nextMillisecond < 10000000 ∧
        (s.time.markSeen = true ∨ s.time.window < s.time.ticks.val))) :
    ∃ v, execMillisecondEvent s = .next v.neighbourMillisecond ∧ BroughtToTick s v s.eventDue ∧
      v.time.ticks.val = s.eventTick ∧
      v = { s with
        time := { s.time with ticks := v.time.ticks }, portA := v.portA, portB := v.portB, eventDue := false } := by
  rcases h with ⟨due, nonzero⟩ | ⟨undue, inSecond, seen⟩
  · refine ⟨s.takeEvent, ?_, due ▸ s.takeEvent_broughtToTick, by simp [State.eventTick, due], rfl⟩
    rw [execMillisecondEvent, if_pos due, State.issueEvent_other nonzero]
  · have ahead : s.time.ticks.val < s.time.nextMillisecond := by
      rw [SiteTime.nextMillisecond_eq]
      omega
    have short : s.time.nextMillisecond < s.time.windowOpens := by
      rw [SiteTime.windowOpens_eq]
      rw [SiteTime.nextMillisecond_eq] at inSecond ⊢
      omega
    have ticks := State.passTo_ticks ahead inSecond
    refine ⟨(s.passTo s.time.nextMillisecond).takeEvent, ?_, undue ▸ State.passTo_broughtToTick ahead inSecond, ?_, ?_⟩
    · rw [execMillisecondEvent_undue undue inSecond, State.countTo_near undue ahead inSecond (Nat.le_refl _) short seen,
        State.issueEvent_other (by omega)]
    · rw [State.eventTick, if_neg (by simp [undue])]
      exact ticks
    · rw [State.passTo, dif_pos ⟨ahead, inSecond⟩]
      rfl

/-- Settles O21: the wrap is that of SECOND_BOUNDARY, a mark missed on the way is taken first, and otherwise the part is
brought to the tick of the event, at which `BroughtToTick.work` says what the neighbours do. -/
theorem millisecondEventPacesThePart : Obligations.MillisecondEventPacesThePart := by
  refine ⟨fun s h => ?_, fun s law => ⟨fun undue unseen before u h => ?_, fun h => ?_⟩⟩
  · rw [exec_millisecondEvent, exec_secondBoundary]
    exact execMillisecondEvent_wrap h
  · rw [exec_missedMark] at h
    rw [exec_millisecondEvent, exec_millisecondEvent]
    exact execMillisecondEvent_missedMark undue unseen before law.window_high h
  intro tick
  rw [exec_millisecondEvent]
  obtain ⟨v, row, brought, ticks, same⟩ := execMillisecondEvent_broughtToTick law.window_low law.window_high h
  have time : v.time = { s.time with ticks := v.time.ticks } := by rw [same]
  have seconds : v.time.seconds = s.time.seconds := by rw [same]
  have counters : v.counters = s.counters := by rw [same]
  have runner : v.runner = s.runner := by rw [same]
  have engine : v.engine = s.engine := by rw [same]
  have ticks : v.time.ticks.val = tick := ticks
  have work := brought.work
  rw [seconds, ticks, counters] at work
  have after : v.neighbourMillisecond.time = v.time ∧ v.neighbourMillisecond.eventDue = v.eventDue := by simp
  refine ⟨v.neighbourMillisecond, row, ?_, ?_, ?_, work, ?_, fun quiet => ?_, ?_⟩
  · rw [after.1]
    exact ticks
  · rw [after.1]
    exact time
  · rw [after.2, same]
  · rw [← engine]
    exact v.neighbourMillisecond_engine
  · refine (v.neighbourMillisecond_runner ?_).trans runner
    rw [seconds, ticks, counters]
    exact ⟨quiet.1, brought.alarms ▸ quiet.2⟩
  · refine v.neighbourMillisecond_frame.trans ?_
    rw [after.1]
    generalize v.neighbourMillisecond = t
    rw [same]

end Sys2Proof.Machine
end
